-- ==== Sys2Proof/Word.lean ====
section
/-! DEFINITION. The plain words of the block: bytes, 7-bit device addresses and member indices
(00_scope.md sections 5.1, 5.3 and 5.4). -/

namespace Sys2Proof

/-- One byte, as it crosses either I2C bus or the maintenance line. -/
abbrev Byte := BitVec 8

/-- A 7-bit device address (00_scope.md section 5.3). -/
abbrev DevAddr := BitVec 7

/-- A member index, 0 to 7, in descriptor order (R78). -/
abbrev MemberIx := Fin 8

/-- A moment or a duration, in microseconds of the part's 1 µs time base (00_scope.md section 5.2). -/
abbrev Micros := Nat

/-- A byte address within a member, 0 to capacity − 1 (00_scope.md section 5.4). -/
abbrev MemberAddr := Nat

end Sys2Proof
end

