-- ==== Sys2Proof/Syntax.lean ====
section
/-! DEFINITION. The commands the block takes: one constructor per row of spec/opcode_table.json.
The table gives a row no operand fields; the operands below are what the row's rules say the event
carries (a byte, an answer, an outcome, the levels of pins at the moment of sampling). -/

namespace Sys2Proof

/-- The read/write bit of an address byte (00_scope.md section 5.3): (W) or (R). -/
inductive Dir where
  | write
  | read
deriving DecidableEq, Repr

/-- How a host ends a read: by STOP or by a repeated START (R58). -/
inductive Ending where
  | stop
  | repeatedStart
deriving DecidableEq, Repr

/-- The byte at which a downstream read was answered NACK (R121). -/
inductive ReadNack where
  | deviceW
  | wordAddress
  | deviceR
deriving DecidableEq, Repr

/-- The byte at which a downstream write was answered NACK (R121). -/
inductive WriteNack where
  | deviceW
  | wordAddress
  | data
deriving DecidableEq, Repr

/-- The outcome of a downstream read at its STOP (R121): completed with the bytes the target
returned, in order, or ended early by a NACK. A fault abort is a row of its own. -/
inductive ReadReport where
  | completed (bytes : List Byte)
  | nack (byte : ReadNack)
deriving DecidableEq, Repr

/-- The outcome of a downstream write at its STOP (R121). -/
inductive WriteReport where
  | completed
  | nack (byte : WriteNack)
deriving DecidableEq, Repr

/-- The input levels sampled at a reset release (R137, R166, R196). `pfailAsserted` is the level of
PFAIL in its active sense (asserted is low on the pin). -/
structure Pins where
  ads : BitVec 3
  passHigh : Bool
  mselHigh : Bool
  drainHigh : Bool
  pfailAsserted : Bool
deriving DecidableEq, Repr

/-- A command of the block: an event of opcode_table.json. The doc comment of each constructor names
the row's rule. -/
inductive Instr where
  /-- POWER_ON_RESET, R164. -/
  | powerOnReset
  /-- RESET_LINE_ASSERTED, R164: the tenth consecutive low sample of RESET. -/
  | resetLineAsserted
  /-- RESET_RELEASE, R167, with the levels sampled at it. -/
  | resetRelease (pins : Pins)
  /-- MSEL_PULSE, R166: a rising edge on MSEL (DESIGN CHOICE, log entry 12). -/
  | mselPulse
  /-- MSEL_WINDOW_END, R166. -/
  | mselWindowEnd
  /-- DESCRIPTOR_READ_END, R169. -/
  | descriptorReadEnd (report : ReadReport)
  /-- DESCRIPTOR_READ_RETRY_DUE, R169. -/
  | descriptorReadRetryDue
  /-- ANSWER_WINDOW_END, R169. -/
  | answerWindowEnd
  /-- PROBE_END, R84, with the answer of the device address. -/
  | probeEnd (ack : Bool)
  /-- PROBE_RETRY_DUE, R84. -/
  | probeRetryDue
  /-- PROBE_WINDOW_END, R84. -/
  | probeWindowEnd
  /-- UPSTREAM_START, R96. -/
  | upstreamStart
  /-- ADDRESS_BYTE, R97: the device address and read/write bit at the acknowledge slot. -/
  | addressByte (dev : DevAddr) (dir : Dir)
  /-- WORD_ADDRESS_BYTE, R101. -/
  | wordAddressByte (byte : Byte)
  /-- WRITE_DATA_BYTE, R102. -/
  | writeDataByte (byte : Byte)
  /-- WRITE_STOP, R103. -/
  | writeStop
  /-- WRITE_REPEATED_START, R104. -/
  | writeRepeatedStart
  /-- READ_BYTE_ANSWER, R105: the host's answer after a read byte. -/
  | readByteAnswer (ack : Bool)
  /-- READ_END, R58. -/
  | readEnd (how : Ending)
  /-- FETCH_END, R68. -/
  | fetchEnd (report : ReadReport)
  /-- FETCH_DUE_AGAIN, R67. -/
  | fetchDueAgain
  /-- READ_HOLD_EXPIRY, R72. -/
  | readHoldExpiry
  /-- RELAY_HOLD_EXPIRY, R108. -/
  | relayHoldExpiry
  /-- RELAY_HOST_BYTE, R125. -/
  | relayHostByte (byte : Byte)
  /-- RELAY_TARGET_ANSWER, R109. -/
  | relayTargetAnswer (ack : Bool)
  /-- RELAY_READ_BYTE, R110. -/
  | relayReadByte (byte : Byte)
  /-- RELAY_HOST_READ_ANSWER, R110. -/
  | relayHostReadAnswer (ack : Bool)
  /-- RELAY_STOP, R126. -/
  | relayStop
  /-- RELAY_REPEATED_START, R111: the repeated START with the address byte that follows it (DESIGN CHOICE,
  log entry 10). -/
  | relayRepeatedStart (dev : DevAddr) (dir : Dir)
  /-- UP_TIMEOUT, R113. -/
  | upTimeout
  /-- SELECTION, R31. -/
  | selection
  /-- DWELL_EXPIRY, R18: the deadline of the entry at a list position. -/
  | dwellExpiry (position : Nat)
  /-- FILL_READ_END, R39. -/
  | fillReadEnd (report : ReadReport)
  /-- ISSUE_END, R40. -/
  | issueEnd (report : WriteReport)
  /-- BUSY_REPEAT_DUE, R36: the due time of a member's slot. -/
  | busyRepeatDue (member : MemberIx)
  /-- POLL_DUE, R42. -/
  | pollDue (member : MemberIx)
  /-- POLL_END, R42. -/
  | pollEnd (ack : Bool)
  /-- WRITE_CYCLE_TIMEOUT, R43. -/
  | writeCycleTimeout (member : MemberIx)
  /-- VERIFY_READ_END, R44. -/
  | verifyReadEnd (report : ReadReport)
  /-- ARBITER_CHOICE, R122, with what the line check finds (R130). -/
  | arbiterChoice (linesHigh : Bool)
  /-- LINES_HIGH_AT_CHECK, R130. -/
  | linesHighAtCheck
  /-- STUCK_BUS_FOUND, R130. -/
  | stuckBusFound
  /-- STRETCH_TIMEOUT, R127: the time from the beginning of the controller's move to the release at which DSCL
  stays low (DESIGN CHOICE, log entry 34). -/
  | stretchTimeout (after : Micros := 0)
  /-- COLLISION, R128. -/
  | collision
  /-- BUS_CLEAR_END, R132: how many SCL pulses DSDA needs before it is sampled high, and whether both
  lines are high within 1 ms after the STOP (R131; DESIGN CHOICE, log entry 16). -/
  | busClearEnd (pulsesNeeded : Nat) (highAfterStop : Bool)
  /-- BUS_CLEAR_SCL_TIMEOUT, R131: the number of SCL pulses made before the release at which DSCL stays low
  (DESIGN CHOICE, log entry 16). -/
  | busClearSclTimeout (pulses : Nat := 0)
  /-- HALT_RETRY_TIMER, R134. -/
  | haltRetryTimer
  /-- DRAIN_RISING_EDGE, R138: a high sample of DRAIN, whether the line was sampled low since the level the
  part last held, and whether it has been sampled low again after it (DESIGN CHOICE, log entry 12). -/
  | drainRisingEdge (lowBefore : Bool := true) (lowAfter : Bool := false)
  /-- PFAIL_ASSERTION, R141. -/
  | pfailAssertion
  /-- PFAIL_DEASSERTION, R147. -/
  | pfailDeassertion
  /-- FLUSH_EXPIRED, R146. -/
  | flushExpired
  /-- QUIESCE_EXPIRY, R174. -/
  | quiesceExpiry
  /-- DEFERRED_CHANGE, R118. -/
  | deferredChange
  /-- MRX_BYTE, R179: a byte at its stop bit, and whether the stop bit was sampled high (R178). -/
  | mrxByte (byte : Byte) (stopHigh : Bool)
  /-- FRAME_GAP_TIMEOUT, R179. -/
  | frameGapTimeout
  /-- UNKNOWN_COMMAND, R180: a frame with a valid CRC whose command value is in no row of Table 11-5. -/
  | unknownCommand (code : Byte) (seq : Byte) (payload : List Byte)
  /-- STATUS, R183: a frame with a valid CRC and this command, decoded. So also the rows below (DESIGN
  CHOICE, log entry 8). -/
  | status (seq : Byte) (payload : List Byte)
  /-- READ_ENTRY, R184. -/
  | readEntry (seq : Byte) (payload : List Byte)
  /-- READ_FAULTS, R185. -/
  | readFaults (seq : Byte) (payload : List Byte)
  /-- READ_DESCRIPTOR, R186. -/
  | readDescriptor (seq : Byte) (payload : List Byte)
  /-- CLEAR_FAULTS, R185. -/
  | clearFaults (seq : Byte) (payload : List Byte)
  /-- DRAIN, R187. -/
  | drain (seq : Byte) (payload : List Byte)
  /-- MEMBER_RETRY, R188. -/
  | memberRetry (seq : Byte) (payload : List Byte)
  /-- MEMBER_DISCARD, R188. -/
  | memberDiscard (seq : Byte) (payload : List Byte)
  /-- WRITE_DESCRIPTOR, R189. -/
  | writeDescriptor (seq : Byte) (payload : List Byte)
  /-- DESCRIPTOR_WRITE_END, R189. -/
  | descriptorWriteEnd (report : WriteReport)
  /-- DESCRIPTOR_WRITE_RETRY_DUE, R189. -/
  | descriptorWriteRetryDue
  /-- DESCRIPTOR_WRITE_POLL_DUE, R189. -/
  | descriptorWritePollDue
  /-- DESCRIPTOR_WRITE_POLL_END, R189. -/
  | descriptorWritePollEnd (ack : Bool)
  /-- RELOAD, R191. -/
  | reload (seq : Byte) (payload : List Byte)
  /-- LEAVE_PASSTHROUGH, R191. -/
  | leavePassthrough (seq : Byte) (payload : List Byte)
  /-- ENTER_PASSTHROUGH, R192. -/
  | enterPassthrough (seq : Byte) (payload : List Byte)
  /-- SOFT_RESET, R193. -/
  | softReset (seq : Byte) (payload : List Byte)
  /-- RESPONSE_SENT, R181. The levels are read only where the response is that of an accepted
  SOFT_RESET, whose reset is taken and released here (R164; DESIGN CHOICE, log entry 11). -/
  | responseSent (pins : Pins)
  /-- UPSTREAM_STOP, R96. -/
  | upstreamStop
  /-- MRX_START_BIT, R178. -/
  | mrxStartBit
deriving DecidableEq, Repr

end Sys2Proof
end

