-- ==== Sys2Proof/Machine/Quantities.lean ====
section
/-! DEFINITION. The fixed durations of Table 0-3, in microseconds of the part's time base. -/

namespace Sys2Proof.Machine

/-- A duration of whole milliseconds on the 1 µs time base (00_scope.md section 5.2). -/
def ms (n : Nat) : Micros := 1000 * n

/-- Poll interval and the spacing of a busy repetition: 200 µs (R36, R42, R67, R189). -/
def pollInterval : Micros := 200

/-- Upstream idle limit: 35 ms (R113). -/
def idleLimit : Micros := ms 35

/-- The line check before a START waits this long: 1 ms (R130). -/
def lineCheckLimit : Micros := ms 1

/-- A target may hold DSCL low for this long after the controller has released it: 25 ms (R127). -/
def stretchLimit : Micros := ms 25

/-- One period of DSCL at 400 kHz, 2.5 µs, in whole microseconds of the time base (R121): the controller
releases DSCL within it, where no target holds it. -/
def sclPeriod : Micros := 3

/-- In a bus clear DSCL is to rise within 1 ms of each release, and both lines within 1 ms of the STOP
(R131). -/
def clearRise : Micros := ms 1

/-- Bus clear is repeated this often while the bus is halted: 10 ms (R134). -/
def haltRetry : Micros := ms 10

/-- The window of a probe and of a descriptor read: 10 ms (R84, R169). -/
def accessWindow : Micros := ms 10

/-- A refused or aborted probe or descriptor read is requested again after 1 ms (R84, R169). -/
def accessRetry : Micros := ms 1

/-- The MSEL window: 5 ms from reset release (R166). -/
def mselWindow : Micros := ms 5

/-- The bound of a block of WRITE_DESCRIPTOR on its write and on its polls: 31 ms (R189). -/
def blockLimit : Micros := ms 31

/-- The inter-byte limit of the maintenance line: 20 ms (R179). -/
def frameGap : Micros := ms 20

/-- The hold limit of a relay grant while no descriptor-global value is held: 100 ms (R107). -/
def defaultHoldMs : Nat := 100

/-- The starvation counter stands at most at 4 (R123). -/
def starvationLimit : Nat := 4

end Sys2Proof.Machine
end

