-- ==== Sys2Proof/Config.lean ====
section
/-! DEFINITION. The fixed sizes of the part (Table 0-3). The spec gives the part no implementation
choice and no undefined result, so there is no uninterpreted field here: see NOTES.md. -/

namespace Sys2Proof.Config

/-- The journal list holds at most this many entries (R1). -/
def journalSlots : Nat := 32

/-- The fault ring holds at most this many records (R152). -/
def ringSlots : Nat := 16

/-- A fetch reads at most this many bytes (R66). -/
def fetchBytes : Nat := 16

/-- The descriptor is this many bytes long (Table 11-1). -/
def descriptorBytes : Nat := 64

/-- The longest payload of a request frame (R179). -/
def requestPayload : Nat := 72

/-- Bus clear makes at most this many SCL pulses (R131). -/
def clearPulses : Nat := 9

end Sys2Proof.Config
end

