-- ==== Sys2Proof/Machine/State.lean ====
section
/-! DEFINITION. The state of the SJ832: every register, list, buffer, timer, mode and line the spec gives
the part, block by block (Table 0-1), and the queue of commands that wait. Values that the spec derives
from others (free count, valid count, DRAINED, ALERT, READY, the commit slots) are computed from their
one home; INVENTORY.md lists them. -/

namespace Sys2Proof.Machine

/-! ## Members (Chapter 4) -/

/-- A member record with the fields of Table 4-1. Durations are in milliseconds, as stored. -/
structure MemberRec where
  bus : DevAddr
  capacityCode : Nat
  pageCode : Nat
  journaled : Bool
  strict : Bool
  hold : Bool
  fill : Bool
  verify : Bool
  retryLimit : Nat
  dwellMs : Nat
  cycleMs : Nat
deriving DecidableEq, Repr

/-- The record an index beyond the member table reads as. No rule reads it: every index that a rule
names has a record (DESIGN CHOICE, log entry 32). -/
def MemberRec.absent : MemberRec :=
  { bus := 0, capacityCode := 0, pageCode := 0, journaled := false, strict := false, hold := false,
    fill := false, verify := false, retryLimit := 0, dwellMs := 0, cycleMs := 0 }

/-- The member states of Table 4-3; `unset` is the state the spec writes "none". -/
inductive MemberState where
  | unset
  | offline
  | online
  | cycle
  | held
deriving DecidableEq, Repr

/-- A row of the member table: its record, its state and its address pointer (R78, R83, R89). The
pointer of a member whose JOURNAL flag is clear is 0 and is never read (R82). -/
structure Member where
  info : MemberRec
  state : MemberState
  pointer : MemberAddr
deriving DecidableEq, Repr

/-! ## The journal and the commit slots (Chapters 1 and 2) -/

/-- A page image: at each byte offset the host's byte where the valid flag is set, and nothing where it
is clear, since the byte there has no meaning (R4). The valid mask and the valid count are read off it. -/
abbrev PageImage := List (Option Byte)

/-- A run: a contiguous span of a page (R37). -/
structure Run where
  start : Nat
  len : Nat
deriving DecidableEq, Repr

/-- The four in-flight states of an entry (R5). -/
inductive Stage where
  | filling
  | issuing
  | cycling
  | verifying
deriving DecidableEq, Repr

/-- The optional parts of an in-flight entry (R6) with the working values of its commit slot
(Table 2-1). The next step of the slot is given by the stage and the run cursor. -/
structure Flight where
  stage : Stage
  runs : List Run
  cursor : Nat
  fillImage : Option PageImage
  busyStart : Option Micros
  cycleStart : Option Micros
  due : Option Micros
deriving DecidableEq, Repr

/-- The state of an entry (R5). The optional parts exist exactly while the entry is in flight (R6). -/
inductive EntryState where
  | pending
  | inFlight (flight : Flight)
  | held
deriving DecidableEq, Repr

/-- A journal entry (Table 1-1). -/
structure Entry where
  member : MemberIx
  page : Nat
  image : PageImage
  state : EntryState
  attempts : Nat
  deadline : Micros
  marked : Bool
deriving DecidableEq, Repr

/-! ## The read path (Chapter 3) -/

/-- The state of the one fetch the read path needs (Table 3-1). -/
inductive FetchState where
  | heldForCycle
  | waitingGrant
  | inProgress
  | dueAgain (due : Micros)
deriving DecidableEq, Repr

/-- The fetch request with its fetch address (Table 3-1). -/
structure Fetch where
  state : FetchState
  addr : MemberAddr
deriving DecidableEq, Repr

/-- The condition of the open read. The stretch start and the fetch request are present exactly in
WAITING (R66, R71). -/
inductive ReadCond where
  | serving
  | waiting (stretchStart : Micros) (fetch : Fetch)
  | underrun
deriving DecidableEq, Repr

/-- The fetch buffer: bytes of the member at consecutive addresses (R65). -/
structure FetchBuffer where
  start : MemberAddr
  bytes : List Byte
deriving DecidableEq, Repr

/-- The open read record (Table 3-1). `ended` says that the host has answered a byte with NACK, after
which no further byte is served (R58). -/
structure OpenRead where
  member : MemberIx
  cond : ReadCond
  buffer : Option FetchBuffer
  recorded : Bool
  ended : Bool
deriving DecidableEq, Repr

/-! ## The upstream engine (Chapter 5) -/

/-- The abort mark of a WRITE or RELAY phase (Table 5-1). -/
inductive AbortMark where
  | clear
  | prot
  | pfail
  | failed
deriving DecidableEq, Repr

/-- A WRITE phase: the member, the word-address bytes received, the count of data bytes acknowledged
and the abort mark (Table 5-1). -/
structure OpenWrite where
  member : MemberIx
  word : List Byte
  dataCount : Nat
  mark : AbortMark
deriving DecidableEq, Repr

/-- Where a relay stands between the host and the target (R109, R110, R125). In the steps in which the
host is to act, the controller holds DSCL low (R124): see State.dsclHeld. -/
inductive RelayStep where
  /-- The address byte is downstream; USCL is held for the target's answer. -/
  | addressSent
  /-- A host byte is downstream; USCL is held for the target's answer. -/
  | byteSent
  /-- The host is to send a byte, STOP or repeated START. -/
  | hostTurn
  /-- A read byte is being clocked in from the target; USCL is held. -/
  | readDue
  /-- A read byte is on USDA; the host is to answer it, and the downstream slot waits. -/
  | readShown
  /-- The host has ended the data of the read. -/
  | readDone
  /-- A repeated START has been seen; its address byte is to come (R111). `slotPending` says that it came
  while the downstream acknowledge slot of a read byte was pending, which it still is (R126). -/
  | restarted (slotPending : Bool)
deriving DecidableEq, Repr

/-- A RELAY phase. `inRun` says that the device-address byte of the segment was taken in RUN, so that
the descriptor check applies (R92, R94); `word` and `count` follow the segment's own bytes for it. -/
structure OpenRelay where
  dev : DevAddr
  inRun : Bool
  mark : AbortMark
  step : RelayStep
  word : List Byte
  count : Nat
deriving DecidableEq, Repr

/-- The phases of the upstream transaction record (Table 5-2) with the fields each has (Table 5-1). -/
inductive Phase where
  | idle
  | address
  | notAddressed
  | write (w : OpenWrite)
  | read
  | relayWait (dev : DevAddr) (inRun : Bool) (stretchStart : Micros)
  | relay (r : OpenRelay)
deriving DecidableEq, Repr

/-- What the part puts on USDA: an answer in an acknowledge slot, or a byte. -/
inductive UpDrive where
  | ack
  | nack
  | byte (b : Byte)
deriving DecidableEq, Repr

/-- The upstream transaction record (Table 5-1) and the last thing the part drove upstream. `idle` is
the idle timer with its start time. -/
structure Upstream where
  phase : Phase
  dir : Option Dir
  idle : Option Micros
  drive : List UpDrive
deriving DecidableEq, Repr

/-- The landing buffer bound to a page of a member (R102). -/
structure Landing where
  member : MemberIx
  page : Nat
  image : PageImage
deriving DecidableEq, Repr

/-! ## The downstream controller (Chapter 6) -/

/-- Who asks for a descriptor read: start-up and RELOAD, or a command of the port (Table 6-2). -/
inductive Asker where
  | startUp
  | port
deriving DecidableEq, Repr

/-- A downstream request (Table 6-2). -/
inductive Request where
  | relay
  | fetch
  | poll (m : MemberIx)
  | fillRead (m : MemberIx)
  | verifyRead (m : MemberIx)
  | issue (m : MemberIx)
  | probe (m : MemberIx)
  | descriptorRead (who : Asker)
  | descriptorWrite
  | descriptorPoll
deriving DecidableEq, Repr

/-- A downstream transaction as its bytes (Table 6-3, R35, R67): address only; a write of word address
and data; a random read of a number of bytes; or a relay. -/
inductive Transaction where
  | addressOnly (dev : DevAddr)
  | write (dev : DevAddr) (word : List Byte) (data : List Byte)
  | read (dev : DevAddr) (word : List Byte) (len : Nat)
  | relay
deriving DecidableEq, Repr

/-- The holder of the bus: its request, its transaction, the member and page that a fault of it names
(R129), and the time of its START. -/
structure Holder where
  req : Request
  txn : Transaction
  member : Option MemberIx
  page : Option Nat
  since : Micros
deriving DecidableEq, Repr

/-- The conditions of the controller (Table 6-1). `opening` carries the time of the line check (R130)
and `halted` the time at which the retry timer expires (R134). -/
inductive Controller where
  | free
  | opening (req : Request) (checkedAt : Micros)
  | busy (holder : Holder)
  | clearing
  | halted (retryAt : Micros)
deriving DecidableEq, Repr

/-- What the controller puts on the downstream lines. -/
inductive DownDrive where
  | start
  | repeatedStart
  | address (dev : DevAddr) (dir : Dir)
  | byte (b : Byte)
  | ack
  | nack
  | stop
  | pulse
  | release
deriving DecidableEq, Repr

/-- The downstream controller and arbiter (R119, R120, R123). `waiting` is in the order raised. `moved` is
the time at which the controller last began to move the lines, from which the 25 ms of R127 and the 1 ms
of R131 are counted, or that of an earlier move that the latest one waits for. `closing` says that the latest
move is one whose end no row tells, so that a target may still hold it up: the last answer slot of a relayed
read, the STOP after a protection refusal, or the STOP that ended a relay (R125 to R127). Both are the model's
own fields (DESIGN CHOICE, log entry 34). -/
structure Downstream where
  ctl : Controller
  waiting : List Request
  starvation : Nat
  drive : List DownDrive
  moved : Micros
  closing : Bool
deriving DecidableEq, Repr

/-! ## Drain and flush (Chapter 7) -/

/-- The budget condition of a flush episode (R137). -/
inductive Budget where
  | running
  | expired
deriving DecidableEq, Repr

/-- An open flush episode (R137). -/
structure Episode where
  budget : Budget
  openedAt : Micros
deriving DecidableEq, Repr

/-- The drain and flush unit (R137). `drainHigh` is the DRAIN reference level as the samples that the
commands tell of leave it (DESIGN CHOICE, log entry 12). -/
structure DrainUnit where
  drainHigh : Bool
  pfailAsserted : Bool
  episode : Option Episode
deriving DecidableEq, Repr

/-! ## The fault log (Chapter 8) -/

/-- The kinds of Table 8-2. -/
inductive FaultKind where
  | attemptFailed
  | entryHeld
  | memberOffline
  | readUnderrun
  | protectedWrite
  | upTimeout
  | downFault
  | busStuck
  | busRecovered
  | flushAbort
  | flushExpired
  | resetDiscard
  | descriptorInvalid
  | mselInvalid
deriving DecidableEq, Repr

/-- A fault record (Table 8-1). -/
structure FaultRecord where
  stamp : BitVec 32
  kind : FaultKind
  member : Option MemberIx
  page : Option Nat
  detail : Byte
  lost : Bool
  read : Bool
deriving DecidableEq, Repr

/-! ## The operating-state controller (Chapter 9) -/

/-- The part states (R163). -/
inductive PartState where
  | starting
  | run
  | passthrough
  | flush
  | haltDown
  | doze
deriving DecidableEq, Repr

/-- The PASSTHROUGH causes (Table 9-1). -/
inductive PassCause where
  | strap
  | invalid
  | request
deriving DecidableEq, Repr

/-- The maintenance modes (R166). -/
inductive Mode where
  | off
  | monitor
  | service
deriving DecidableEq, Repr

/-- The descriptor-global values (R171), in the units of Table 11-1 but for the quiesce time, which is in
milliseconds; 0 is no DOZE. -/
structure Globals where
  highWater : Nat
  holdMs : Nat
  budgetMs : Nat
  quiesceMs : Nat
deriving DecidableEq, Repr

/-- Where a repeated downstream access stands: its request waits, is in progress, is due at a time, waits
for the end of a bus clear, or is not made again within its window (R84, R169, R189). -/
inductive Asking where
  | waiting
  | inProgress
  | dueAt (due : Micros)
  | afterClear
  | noMore
deriving DecidableEq, Repr

/-- A descriptor read or a member's probe: where it stands, and when its window opened (R84, R169). -/
structure Access where
  asking : Asking
  window : Option Micros
deriving DecidableEq, Repr

/-- The state prepared for the end of STARTING (R167). -/
inductive Prepared where
  | run
  | passStrap
  | passInvalid (reason : Nat)
deriving DecidableEq, Repr

/-- The step of the start sequence in progress (R167): 1 and 2, 3, 5 and 6, 7, 8. -/
inductive StartStep where
  | sampling
  | busClear
  | descriptorRead (a : Access)
  | probing (m : MemberIx) (a : Access)
  | leaving (dest : Prepared)
deriving DecidableEq, Repr

/-- The operating-state controller (Table 9-1) with the MSEL window: the pulses counted while it is open
and the level of MSEL at its latest sample (R166). `start` is present in STARTING and in a halt left
from it. -/
structure Operating where
  part : PartState
  ret : Option PartState
  cause : Option PassCause
  ads : BitVec 3
  passHigh : Bool
  mode : Mode
  globals : Option Globals
  start : Option StartStep
  quiesce : Option Micros
  everLeft : Bool
  msel : Option Nat
  mselHigh : Bool
deriving DecidableEq, Repr

/-! ## The maintenance port (Chapter 10) -/

/-- The receiver (Table 10-1). A frame under assembly holds its bytes after the sync byte and the time
of the last byte. -/
inductive Receiver where
  | stopped
  | hunt
  | frame (bytes : List Byte) (lastAt : Micros)
deriving DecidableEq, Repr

/-- The status codes of Table 10-3. -/
inductive Status where
  | ok
  | unknownCommand
  | badLength
  | notPermitted
  | busy
  | refused
  | badArgument
deriving DecidableEq, Repr

/-- A response frame, less its sync, length and CRC bytes, which follow from it (R182). -/
structure Response where
  code : Byte
  seq : Byte
  status : Status
  payload : List Byte
deriving DecidableEq, Repr

/-- The two places of the response queue (Table 10-1). -/
inductive Place where
  | command
  | busy
deriving DecidableEq, Repr

/-- A response composed and not yet sent, with the place it takes. -/
structure Outgoing where
  place : Place
  response : Response
deriving DecidableEq, Repr

/-- The step of a block of WRITE_DESCRIPTOR (R189): the write, with the time of the block's first
device-address byte, or the polls, with the time of the write's STOP. -/
inductive BlockStep where
  | writing (asking : Asking) (firstAt : Option Micros)
  | polling (asking : Asking) (stopAt : Micros)
deriving DecidableEq, Repr

/-- The progress of the command in progress (R181). -/
inductive Job where
  /-- Its response is composed. -/
  | answered
  /-- SOFT_RESET's OK is composed; the reset is taken when it has been sent (R193). -/
  | resetArmed
  | readDescriptor (a : Access)
  | writeBlock (image : List Byte) (block : Nat) (step : BlockStep)
  | readBack (image : List Byte) (a : Access)
  | reloadWaiting
  | reloading
  | passWaiting
deriving DecidableEq, Repr

/-- The command in progress: its command and sequence bytes and its progress (Table 10-1). -/
structure Command where
  code : Byte
  seq : Byte
  job : Job
deriving DecidableEq, Repr

/-- The maintenance port (R176). `tx` holds the composed responses in the order composed; the first is
being sent (R181). -/
structure Port where
  rx : Receiver
  cmd : Option Command
  tx : List Outgoing
deriving DecidableEq, Repr

/-! ## The whole part -/

/-- The state of the part. -/
structure State where
  /-- The commands that wait, first in, first out. The model's own field. -/
  pending : List Instr
  /-- The 1 µs time base, counted from reset release (R156). -/
  now : Micros
  /-- A power-on reset or the RESET line holds the part in reset (R164). -/
  inReset : Bool
  os : Operating
  drain : DrainUnit
  members : List Member
  journal : List Entry
  read : Option OpenRead
  up : Upstream
  landing : Option Landing
  ds : Downstream
  log : List FaultRecord
  port : Port
deriving DecidableEq, Repr

/-- The machine right after a power-on reset, which still holds the part: the next event is
RESET_RELEASE. The strap, MSEL, DRAIN and PFAIL levels are sampled there (Table 9-1, R137); until then
they read low, DRAIN low and PFAIL deasserted (DESIGN CHOICE, log entry 3). -/
def State.reset : State where
  pending := []
  now := 0
  inReset := true
  os :=
    { part := .starting, ret := none, cause := none, ads := 0, passHigh := false, mode := .off,
      globals := none, start := some .sampling, quiesce := none, everLeft := false, msel := none,
      mselHigh := false }
  drain := { drainHigh := false, pfailAsserted := false, episode := none }
  members := []
  journal := []
  read := none
  up := { phase := .idle, dir := none, idle := none, drive := [] }
  landing := none
  ds := { ctl := .free, waiting := [], starvation := 0, drive := [], moved := 0, closing := false }
  log := []
  port := { rx := .stopped, cmd := none, tx := [] }

/-! ## How a step can stop -/

/-- Why a step stops with a fault. -/
inductive Fault where
  /-- The controller is said to have completed a read with another number of bytes than the transaction
  asked for. Raised by FETCH_END, FILL_READ_END, VERIFY_READ_END and DESCRIPTOR_READ_END. Safe: a
  completed read has every byte received taken (R121), so no hardware event is stopped. -/
  | byteCount
deriving DecidableEq, Repr

/-- Why a command is refused. -/
inductive Refusal where
  /-- The command has no meaning in the model yet. Raised by exec's own arm. Safe. -/
  | notModelled (mnemonic : String)
deriving DecidableEq, Repr

end Sys2Proof.Machine
end

