-- ==== Sys2Proof/Machine/Operands.lean ====
section
/-! DEFINITION. What the rules compute from records, addresses, page images and runs: the derived values
of R80, word addresses, the overlay of one image on another, the planning of an attempt, and the bytes of
the commit transactions. -/

namespace Sys2Proof.Machine

/-! ## Derived values of a member (R80) -/

/-- Capacity: 128 × 2^code bytes (R80). -/
def MemberRec.capacity (r : MemberRec) : Nat := 128 * 2 ^ r.capacityCode

/-- Page size: 8 × 2^code bytes (R80). -/
def MemberRec.pageSize (r : MemberRec) : Nat := 8 * 2 ^ r.pageCode

/-- Page count: capacity divided by page size (R80). -/
def MemberRec.pageCount (r : MemberRec) : Nat := r.capacity / r.pageSize

/-- Word-address width in bytes: one for a capacity of 128 or 256 bytes, two above (R80). -/
def MemberRec.wordWidth (r : MemberRec) : Nat := if r.capacity ≤ 256 then 1 else 2

/-- The page number of a member address (00_scope.md section 5.4). -/
def MemberRec.pageOf (r : MemberRec) (a : MemberAddr) : Nat := a / r.pageSize

/-- The byte offset of a member address (00_scope.md section 5.4). -/
def MemberRec.offsetOf (r : MemberRec) (a : MemberAddr) : Nat := a % r.pageSize

/-- The member address of an offset of a page (Section 2.3). -/
def MemberRec.addrOf (r : MemberRec) (page offset : Nat) : MemberAddr := page * r.pageSize + offset

/-- The word address that bytes spell, high byte first (00_scope.md section 5.4). -/
def wordValue (bytes : List Byte) : Nat := bytes.foldl (fun n b => 256 * n + b.toNat) 0

/-- The word address of a member address as it is sent, high byte first (R80). -/
def MemberRec.wordBytes (r : MemberRec) (a : MemberAddr) : List Byte :=
  if r.wordWidth = 1 then [BitVec.ofNat 8 a] else [BitVec.ofNat 8 (a / 256), BitVec.ofNat 8 a]

/-- The pointer after a data byte of a write: the next offset of the same page, wrapping to offset 0
(R90). -/
def MemberRec.nextInPage (r : MemberRec) (a : MemberAddr) : MemberAddr :=
  r.addrOf (r.pageOf a) ((r.offsetOf a + 1) % r.pageSize)

/-- The pointer after a byte of a read: one on, from capacity − 1 to 0 (R64). -/
def MemberRec.nextInMember (r : MemberRec) (a : MemberAddr) : MemberAddr := (a + 1) % r.capacity

/-- The length of a fetch from an address: 16 or what is left to the capacity end (R66). -/
def MemberRec.fetchLen (r : MemberRec) (a : MemberAddr) : Nat :=
  min Config.fetchBytes (r.capacity - a)

/-! ## Page images (R4) -/

/-- An image of a page with every flag clear (R102). -/
def PageImage.blank (size : Nat) : PageImage := List.replicate size none

/-- The byte at an offset, where its flag is set (R4). -/
def PageImage.byteAt (img : PageImage) (offset : Nat) : Option Byte := (img[offset]?).join

/-- The valid count (R4). -/
def PageImage.validCount (img : PageImage) : Nat := img.countP Option.isSome

/-- Bytes laid over an image: where the upper flag is set its byte replaces the lower byte and the flag
is set, and elsewhere the lower image stays (R13, R24). -/
def PageImage.overlay (lower upper : PageImage) : PageImage :=
  List.zipWith (fun l u => if u.isSome then u else l) lower upper

/-! ## Entries (R3, R5) -/

/-- The entry is PENDING. -/
def Entry.isPending (e : Entry) : Bool := e.state == .pending

/-- The entry is HELD. -/
def Entry.isHeld (e : Entry) : Bool := e.state == .held

/-- The optional parts and slot values of an in-flight entry. -/
def Entry.flight? (e : Entry) : Option Flight :=
  match e.state with
  | .inFlight f => some f
  | _ => none

/-- The entry is in flight (R5). -/
def Entry.isInFlight (e : Entry) : Bool := e.flight?.isSome

/-- The entry is in the in-flight state named. -/
def Entry.atStage (st : Stage) (e : Entry) : Bool :=
  match e.flight? with
  | some f => f.stage == st
  | none => false

/-! ## Planning (R37, R38) -/

/-- The maximal spans of set flags of an image whose first offset is `at_` (R37). -/
def runsFrom : PageImage → Nat → List Run
  | [], _ => []
  | none :: rest, i => runsFrom rest (i + 1)
  | some _ :: rest, i =>
    match runsFrom rest (i + 1) with
    | [] => [{ start := i, len := 1 }]
    | r :: rs =>
      if r.start = i + 1 then { start := i, len := r.len + 1 } :: rs
      else { start := i, len := 1 } :: r :: rs

/-- The runs of an image under the RUNS policy (R37). -/
def PageImage.runs (img : PageImage) : List Run := runsFrom img 0

/-- The single run of an image under the FILL policy, from the lowest valid offset to the highest
(R38). -/
def PageImage.span (img : PageImage) : Run :=
  match img.runs.head?, img.runs.getLast? with
  | some first, some last => { start := first.start, len := last.start + last.len - first.start }
  | _, _ => { start := 0, len := 0 }

/-- The plan of an attempt (R37, R38): the run list, the cursor at the first run, and the first
transaction due at once. -/
def planFlight (r : MemberRec) (img : PageImage) : Flight :=
  let runs := if r.fill then [img.span] else img.runs
  let gaps := r.fill && img.span.len != img.validCount
  { stage := if gaps then .filling else .issuing, runs := runs, cursor := 0, fillImage := none,
    busyStart := none, cycleStart := none, due := none }

/-- The run under the run cursor (R3). -/
def Flight.currentRun (f : Flight) : Run := f.runs.getD f.cursor { start := 0, len := 0 }

/-- The run cursor is at the last run (R42). -/
def Flight.atLastRun (f : Flight) : Bool := decide (f.runs.length ≤ f.cursor + 1)

/-- The byte an attempt writes at an offset: the entry's data at a valid offset, and the fill image at a
gap offset (R35). -/
def writtenByte (img : PageImage) (fillImage : Option PageImage) (offset : Nat) : Byte :=
  match img.byteAt offset with
  | some b => b
  | none => ((fillImage.getD []).byteAt offset).getD 0

/-- The bytes an attempt writes in a run, in offset order (R35). -/
def runBytes (img : PageImage) (f : Flight) (r : Run) : List Byte :=
  (List.range r.len).map fun k => writtenByte img f.fillImage (r.start + k)

/-- The fill image kept from the bytes of a fill read of a run: those at gap offsets (R39). -/
def gapImage (size : Nat) (img : PageImage) (r : Run) (bytes : List Byte) : PageImage :=
  (List.range size).map fun o =>
    if (img.byteAt o).isNone && decide (r.start ≤ o) && decide (o < r.start + r.len)
    then bytes[o - r.start]? else none

/-! ## The fetch buffer (R65, R70) -/

/-- The buffer's byte for a member address it holds (R65). -/
def FetchBuffer.byteAt (b : FetchBuffer) (a : MemberAddr) : Option Byte :=
  if b.start ≤ a then b.bytes[a - b.start]? else none

/-- An entry's valid bytes written into the buffer at the addresses it holds (R70). -/
def FetchBuffer.take (b : FetchBuffer) (r : MemberRec) (e : Entry) : FetchBuffer :=
  { b with
    bytes := b.bytes.mapIdx fun i old =>
      let a := b.start + i
      if r.pageOf a = e.page then (e.image.byteAt (r.offsetOf a)).getD old else old }

/-! ## Requests (Table 6-2) -/

/-- The request is of the upstream side. -/
def Request.isUpstream : Request → Bool
  | .relay | .fetch => true
  | _ => false

/-- The request is of the commit side. -/
def Request.isCommit : Request → Bool
  | .poll _ | .fillRead _ | .verifyRead _ | .issue _ => true
  | _ => false

/-- The request is a service request. -/
def Request.isService (r : Request) : Bool := !r.isUpstream && !r.isCommit

/-- The classes of the commit side, in the order in which they are served (R122). -/
inductive CommitClass where
  | poll
  | read
  | issue
deriving DecidableEq, Repr

/-- The class of a commit request: poll, fill or verify read, issue. -/
def Request.commitClass : Request → Option CommitClass
  | .poll _ => some .poll
  | .fillRead _ => some .read
  | .verifyRead _ => some .read
  | .issue _ => some .issue
  | _ => none

/-! ## Transactions on the bus (Table 6-3, R35, R67) -/

/-- What the controller puts on the bus in a transaction whose every byte is acknowledged, in order: its
own bytes, and its answers to the bytes it receives. A NACK cuts it short with STOP at once (R121). A relay
is driven by the host's bytes. -/
def Transaction.wire : Transaction → List DownDrive
  | .addressOnly dev => [.start, .address dev .write, .stop]
  | .write dev word data =>
    [.start, .address dev .write] ++ word.map .byte ++ data.map .byte ++ [.stop]
  | .read dev word len =>
    [.start, .address dev .write] ++ word.map .byte ++ [.repeatedStart, .address dev .read] ++
      List.replicate (len - 1) .ack ++ [.nack, .stop]
  | .relay => []

/-- The downstream request of a member's next step (Table 2-1). -/
def Stage.request (m : MemberIx) : Stage → Request
  | .filling => .fillRead m
  | .issuing => .issue m
  | .cycling => .poll m
  | .verifying => .verifyRead m

end Sys2Proof.Machine
end

