-- ==== Sys2Proof/WellFormed.lean ====
section
/-! DEFINITION. The checks a command's operands meet whatever the state. Each is a bound the spec puts
on what the event can carry. -/

namespace Sys2Proof

/-- The values of the command field of a request (Table 11-5). -/
def commandCodes : List Byte :=
  [0x01, 0x02, 0x03, 0x04, 0x10, 0x11, 0x12, 0x13, 0x14, 0x15, 0x16, 0x17, 0x18]

/-- A completed read brings at least one byte and at most `most` (R66, R35, R121). -/
def ReadReport.bounded (most : Nat) : ReadReport → Bool
  | .completed bs => decide (1 ≤ bs.length) && decide (bs.length ≤ most)
  | .nack _ => true

/-- A completed read brings exactly `n` bytes (R121: the descriptor read). -/
def ReadReport.exact (n : Nat) : ReadReport → Bool
  | .completed bs => decide (bs.length = n)
  | .nack _ => true

/-- A request frame carries at most 72 payload bytes (R179). -/
def payloadFits (payload : List Byte) : Bool := decide (payload.length ≤ Config.requestPayload)

/-- What a command's operands must meet, whatever the state. -/
def Instr.wellFormed : Instr → Bool
  | .descriptorReadEnd r => r.exact Config.descriptorBytes
  | .fetchEnd r => r.bounded Config.fetchBytes
  | .fillReadEnd r => r.bounded 64
  | .verifyReadEnd r => r.bounded 64
  | .dwellExpiry i => decide (i < Config.journalSlots)
  | .busClearSclTimeout n => decide (n ≤ Config.clearPulses)
  | .unknownCommand c _ p => !commandCodes.contains c && payloadFits p
  | .status _ p => payloadFits p
  | .readEntry _ p => payloadFits p
  | .readFaults _ p => payloadFits p
  | .readDescriptor _ p => payloadFits p
  | .clearFaults _ p => payloadFits p
  | .drain _ p => payloadFits p
  | .memberRetry _ p => payloadFits p
  | .memberDiscard _ p => payloadFits p
  | .writeDescriptor _ p => payloadFits p
  | .reload _ p => payloadFits p
  | .leavePassthrough _ p => payloadFits p
  | .enterPassthrough _ p => payloadFits p
  | .softReset _ p => payloadFits p
  | .powerOnReset => true
  | .resetLineAsserted => true
  | .resetRelease _ => true
  | .mselPulse => true
  | .mselWindowEnd => true
  | .descriptorReadRetryDue => true
  | .answerWindowEnd => true
  | .probeEnd _ => true
  | .probeRetryDue => true
  | .probeWindowEnd => true
  | .upstreamStart => true
  | .addressByte _ _ => true
  | .wordAddressByte _ => true
  | .writeDataByte _ => true
  | .writeStop => true
  | .writeRepeatedStart => true
  | .readByteAnswer _ => true
  | .readEnd _ => true
  | .fetchDueAgain => true
  | .readHoldExpiry => true
  | .relayHoldExpiry => true
  | .relayHostByte _ => true
  | .relayTargetAnswer _ => true
  | .relayReadByte _ => true
  | .relayHostReadAnswer _ => true
  | .relayStop => true
  | .relayRepeatedStart _ _ => true
  | .upTimeout => true
  | .selection => true
  | .issueEnd _ => true
  | .busyRepeatDue _ => true
  | .pollDue _ => true
  | .pollEnd _ => true
  | .writeCycleTimeout _ => true
  | .arbiterChoice _ => true
  | .linesHighAtCheck => true
  | .stuckBusFound => true
  | .stretchTimeout _ => true
  | .collision => true
  | .busClearEnd _ _ => true
  | .haltRetryTimer => true
  | .drainRisingEdge _ _ => true
  | .pfailAssertion => true
  | .pfailDeassertion => true
  | .flushExpired => true
  | .quiesceExpiry => true
  | .deferredChange => true
  | .mrxByte _ _ => true
  | .frameGapTimeout => true
  | .descriptorWriteEnd _ => true
  | .descriptorWriteRetryDue => true
  | .descriptorWritePollDue => true
  | .descriptorWritePollEnd _ => true
  | .responseSent _ => true
  | .upstreamStop => true
  | .mrxStartBit => true

end Sys2Proof
end

