-- ==== Sys2Proof/Machine/Formats.lean ====
section
/-! DEFINITION. The byte layouts of Chapter 11: the two CRCs, the descriptor and its validation, the
maintenance frames and payloads, and the fault record. -/

namespace Sys2Proof.Machine

/-! ## Bytes and CRCs -/

/-- The low `n` bytes of a number, little-endian (00_scope.md section 5.7). -/
def littleEndian : Nat → Nat → List Byte
  | 0, _ => []
  | n + 1, v => BitVec.ofNat 8 v :: littleEndian n (v / 256)

/-- One bit of the CRC-8 register: x^8 + x^2 + x + 1 (R195). -/
def crc8Shift (c : Byte) : Byte := if c.msb then (c <<< 1) ^^^ 0x07 else c <<< 1

/-- One byte into the CRC-8 register, most significant bit first (R195). -/
def crc8Byte (c b : Byte) : Byte := Nat.iterate crc8Shift 8 (c ^^^ b)

/-- The CRC-8 of a frame's bytes from position 1 to the last payload byte (R195). -/
def crc8 (bytes : List Byte) : Byte := bytes.foldl crc8Byte 0

/-- One bit of the CRC-16 register: x^16 + x^12 + x^5 + 1 (R194). -/
def crc16Shift (c : BitVec 16) : BitVec 16 := if c.msb then (c <<< 1) ^^^ 0x1021 else c <<< 1

/-- One byte into the CRC-16 register, most significant bit first (R194). -/
def crc16Byte (c : BitVec 16) (b : Byte) : BitVec 16 :=
  Nat.iterate crc16Shift 8 (c ^^^ (b.setWidth 16 <<< 8))

/-- The CRC-16 of the descriptor: the register starts at 0xFFFF (R194). -/
def crc16 (bytes : List Byte) : BitVec 16 := bytes.foldl crc16Byte 0xFFFF

/-! ## The descriptor (R194) -/

/-- Byte `n` of an image, as a number (Table 11-1). -/
def imageNat (image : List Byte) (n : Nat) : Nat := (image.getD n 0).toNat

/-- The six bytes of member record `i` (Table 11-1). -/
def recordBytes (image : List Byte) (i : Nat) : List Byte := (image.drop (14 + 6 * i)).take 6

/-- A member record read by Table 11-2. -/
def readRecord (rb : List Byte) : MemberRec :=
  let flags := rb.getD 2 0
  { bus := (rb.getD 0 0).setWidth 7
    capacityCode := imageNat rb 1 % 16
    pageCode := imageNat rb 1 / 16
    journaled := flags.getLsbD 0
    strict := flags.getLsbD 1
    hold := flags.getLsbD 2
    fill := flags.getLsbD 3
    verify := flags.getLsbD 4
    retryLimit := (flags.extractLsb' 5 2).toNat
    dwellMs := imageNat rb 3
    cycleMs := imageNat rb 4 }

/-- The member count of an image (Table 11-1). -/
def memberCount (image : List Byte) : Nat := imageNat image 3

/-- The used records of an image (R78). -/
def usedRecords (image : List Byte) : List MemberRec :=
  (List.range (memberCount image)).map fun i => readRecord (recordBytes image i)

/-- The flush budget of an image: byte 6 plus 256 times byte 7 (R194). -/
def imageBudget (image : List Byte) : Nat := imageNat image 6 + 256 * imageNat image 7

/-- The global values of an image (R171, R194). -/
def readGlobals (image : List Byte) : Globals :=
  { highWater := imageNat image 4
    holdMs := imageNat image 5
    budgetMs := imageBudget image
    quiesceMs := 10 * imageNat image 8 }

/-- The bus address of the descriptor device: 0x50 + ADS. -/
def descriptorDevice (ads : BitVec 3) : DevAddr := 0x50 + ads.setWidth 7

/-- Check 6 of a used record: the top bit of the bus address, the zero flag position and byte 5 are zero
(Table 9-4). -/
def reservedZero (rb : List Byte) : Bool :=
  !(rb.getD 0 0).getLsbD 7 && !(rb.getD 2 0).getLsbD 7 && rb.getD 5 0 == 0

/-- Check 7 of a used record (Table 9-4). -/
def rangesLegal (r : MemberRec) : Bool :=
  decide (r.capacityCode ≤ 9) && decide (r.pageCode ≤ 3) &&
    decide (1 ≤ r.cycleMs) && decide (r.cycleMs ≤ 31)

/-- Check 8 of a used record by itself (Table 9-4, R79). -/
def addressLegal (ads : BitVec 3) (r : MemberRec) : Bool :=
  decide (0x08 ≤ r.bus.toNat) && decide (r.bus.toNat ≤ 0x77) &&
    (r.bus != descriptorDevice ads || decide (2 ≤ r.capacityCode))

/-- No bus address appears twice (R79). -/
def addressesDistinct : List DevAddr → Bool
  | [] => true
  | a :: rest => !rest.contains a && addressesDistinct rest

/-- Check 9 (Table 9-4). -/
def globalsLegal (g : Globals) : Bool :=
  decide (4 ≤ g.highWater) && decide (g.highWater ≤ 32) && decide (1 ≤ g.holdMs) &&
    decide (g.holdMs ≤ 100) && decide (10 ≤ g.budgetMs) && decide (g.budgetMs ≤ 2000)

/-- Checks 2 to 9 of Table 9-4 with their reason codes, in their order. -/
def descriptorChecks (ads : BitVec 3) (image : List Byte) : List (Nat × Bool) :=
  let n := memberCount image
  let used := usedRecords image
  [ (2, image.getD 0 0 == 0x53 && image.getD 1 0 == 0x4A),
    (3, image.getD 2 0 == 1),
    (4, crc16 (image.take 62) == (image.getD 62 0 ++ image.getD 63 0 : BitVec 16)),
    (5, decide (1 ≤ n) && decide (n ≤ 8)),
    (6, ((image.drop 9).take 5).all (· == 0) &&
        (List.range n).all (fun i => reservedZero (recordBytes image i)) &&
        (((image.drop (14 + 6 * n)).take (6 * (8 - n))).all (· == 0))),
    (7, used.all rangesLegal),
    (8, used.all (addressLegal ads) && addressesDistinct (used.map (·.bus))),
    (9, globalsLegal (readGlobals image)) ]

/-- Validation by checks 2 to 9: the reason code of the first that fails, or none where the image is
valid (R170). -/
def validate (ads : BitVec 3) (image : List Byte) : Option Nat :=
  ((descriptorChecks ads image).find? fun c => !c.2).map Prod.fst

/-! ## Maintenance frames (Tables 11-4 to 11-6) -/

/-- The commands of Table 10-2. -/
inductive Cmd where
  | status
  | readEntry
  | readFaults
  | readDescriptor
  | clearFaults
  | drain
  | memberRetry
  | memberDiscard
  | writeDescriptor
  | reload
  | leavePassthrough
  | enterPassthrough
  | softReset
deriving DecidableEq, Repr

/-- The value of the command field (Table 11-5). -/
def Cmd.code : Cmd → Byte
  | .status => 0x01
  | .readEntry => 0x02
  | .readFaults => 0x03
  | .readDescriptor => 0x04
  | .clearFaults => 0x10
  | .drain => 0x11
  | .memberRetry => 0x12
  | .memberDiscard => 0x13
  | .writeDescriptor => 0x14
  | .reload => 0x15
  | .leavePassthrough => 0x16
  | .enterPassthrough => 0x17
  | .softReset => 0x18

/-- All thirteen commands (R177). -/
def Cmd.all : List Cmd :=
  [.status, .readEntry, .readFaults, .readDescriptor, .clearFaults, .drain, .memberRetry,
   .memberDiscard, .writeDescriptor, .reload, .leavePassthrough, .enterPassthrough, .softReset]

/-- The command a value of the command field names (Table 11-5). -/
def Cmd.ofCode (b : Byte) : Option Cmd := Cmd.all.find? fun c => c.code == b

/-- The command is one of the four reading commands, permitted in MONITOR (R177). -/
def Cmd.inMonitor : Cmd → Bool
  | .status | .readEntry | .readFaults | .readDescriptor => true
  | _ => false

/-- The request payload length of Table 10-2. -/
def Cmd.requestLength : Cmd → Nat
  | .readEntry | .memberRetry | .memberDiscard | .softReset => 1
  | .writeDescriptor => Config.descriptorBytes
  | _ => 0

/-- The status field (Table 11-6). -/
def Status.code : Status → Byte
  | .ok => 0x00
  | .unknownCommand => 0x01
  | .badLength => 0x02
  | .notPermitted => 0x03
  | .busy => 0x04
  | .refused => 0x05
  | .badArgument => 0x06

/-- Refusal reason JOURNAL_NOT_EMPTY (Table 10-4). -/
def reasonJournalNotEmpty : Byte := 16
/-- Refusal reason WRONG_STATE (Table 10-4). -/
def reasonWrongState : Byte := 17
/-- Refusal reason NOT_HELD (Table 10-4). -/
def reasonNotHeld : Byte := 18
/-- Refusal reason ACCESS_FAILED (Table 10-4). -/
def reasonAccessFailed : Byte := 19
/-- Refusal reason VERIFY_FAILED (Table 10-4). -/
def reasonVerifyFailed : Byte := 20

/-- The bytes of a response frame as they go out on MTX (R182, Table 11-4). -/
def Response.bytes (r : Response) : List Byte :=
  let body := [r.code, r.seq, r.status.code, BitVec.ofNat 8 r.payload.length] ++ r.payload
  0x5A :: body ++ [crc8 body]

/-! ## Fields of the payloads (Tables 11-7 to 11-9) -/

/-- The maintenance mode in STATUS. OFF has no value, for no request reaches the part in it (R176; DESIGN
CHOICE, log entry 22). -/
def Mode.code : Mode → Byte
  | .off => 0
  | .monitor => 1
  | .service => 2

/-- The part state in STATUS (Table 11-7). DOZE has no value there: the request has woken the part (R183;
DESIGN CHOICE, log entry 22). -/
def PartState.code : PartState → Byte
  | .starting => 0
  | .run => 1
  | .passthrough => 2
  | .flush => 3
  | .haltDown => 4
  | .doze => 1

/-- The member state in STATUS (Table 11-7). -/
def MemberState.code : MemberState → Byte
  | .unset => 0x00
  | .offline => 0x01
  | .online => 0x02
  | .cycle => 0x03
  | .held => 0x04

/-- The entry state in READ_ENTRY (Table 11-8). -/
def EntryState.code : EntryState → Byte
  | .pending => 0
  | .inFlight f =>
    match f.stage with
    | .filling => 1
    | .issuing => 2
    | .cycling => 3
    | .verifying => 4
  | .held => 5

/-- The kind field of a fault record (Table 8-2). -/
def FaultKind.code : FaultKind → BitVec 7
  | .attemptFailed => 0x01
  | .entryHeld => 0x02
  | .memberOffline => 0x03
  | .readUnderrun => 0x04
  | .protectedWrite => 0x05
  | .upTimeout => 0x06
  | .downFault => 0x07
  | .busStuck => 0x08
  | .busRecovered => 0x09
  | .flushAbort => 0x0A
  | .flushExpired => 0x0B
  | .resetDiscard => 0x0C
  | .descriptorInvalid => 0x0D
  | .mselInvalid => 0x0E

/-- A bit as a byte. -/
def flagByte (b : Bool) : Byte := if b then 1 else 0

/-- Byte `k` of the valid mask in READ_ENTRY: bit `j` is the flag of offset 8k + j (Table 11-8). -/
def maskByte (img : PageImage) (k : Nat) : Byte :=
  BitVec.ofNat 8
    (((List.range 8).map fun j => if (img.byteAt (8 * k + j)).isSome then 2 ^ j else 0).sum)

/-- The READ_ENTRY payload of an entry whose member has this page size (Table 11-8). -/
def entryPayload (pageSize : Nat) (e : Entry) : List Byte :=
  [BitVec.ofNat 8 e.member.val] ++ littleEndian 2 e.page ++
    [e.state.code, BitVec.ofNat 8 e.attempts, flagByte e.marked] ++
    (List.range 8).map (maskByte (e.image.take pageSize)) ++
    (List.range pageSize).map fun o => (e.image.byteAt o).getD 0

/-- The nine bytes of a fault record (Table 11-9). -/
def FaultRecord.bytes (r : FaultRecord) : List Byte :=
  littleEndian 4 r.stamp.toNat ++
    [(BitVec.ofBool r.lost ++ r.kind.code : BitVec 8),
     (r.member.map fun m => BitVec.ofNat 8 m.val).getD 0xFF] ++
    littleEndian 2 (r.page.getD 0xFFFF) ++ [r.detail]

end Sys2Proof.Machine
end

