-- ==== Sys2Proof/Machine/Flags.lean ====
section
/-! DEFINITION. Everything the rules read off the state without changing it: members and slots, the
journal's counts, eligibility and selection, the merge target, the overlay, the phases, the arbiter's
choice, and the three output lines. -/

namespace Sys2Proof.Machine

/-! ## Time -/

/-- The part's millisecond count, which wraps after 2^32 − 1 (R156). -/
def State.stamp (s : State) : BitVec 32 := BitVec.ofNat 32 (s.now / 1000)

/-! ## Members (Chapter 4) -/

/-- The record of a member index, absent beyond the table. -/
def State.info (s : State) (m : MemberIx) : MemberRec :=
  ((s.members[m.val]?).map (·.info)).getD MemberRec.absent

/-- The state of a member index. -/
def State.memberState (s : State) (m : MemberIx) : MemberState :=
  ((s.members[m.val]?).map (·.state)).getD .unset

/-- The address pointer of a member (R89). -/
def State.pointer (s : State) (m : MemberIx) : MemberAddr :=
  ((s.members[m.val]?).map (·.pointer)).getD 0

/-- The index of the record with a bus address, if one has it (R81). No two have the same (R79). -/
def State.memberAt (s : State) (dev : DevAddr) : Option MemberIx :=
  (List.finRange 8).find? fun m =>
    match s.members[m.val]? with
    | some mem => mem.info.bus == dev
    | none => false

/-- The journaled member at a bus address: a record with JOURNAL set and state ONLINE, CYCLE or HELD.
None is the answer "relayed member" or "no member" (R81). -/
def State.journaledAt (s : State) (dev : DevAddr) : Option MemberIx :=
  (s.memberAt dev).filter fun m =>
    (s.info m).journaled &&
      (s.memberState m == .online || s.memberState m == .cycle || s.memberState m == .held)

/-- The first journaled member whose index is at least `n`, which the probe takes next (R84). -/
def State.nextProbed (s : State) (n : Nat) : Option MemberIx :=
  (List.finRange 8).find? fun m =>
    decide (n ≤ m.val) &&
      match s.members[m.val]? with
      | some mem => mem.info.journaled
      | none => false

/-- The bus address of the descriptor device in use. -/
def State.descriptorDev (s : State) : DevAddr := descriptorDevice s.os.ads

/-- The hold limit in force for a relay grant (R107). -/
def State.relayHold (s : State) : Micros := ms ((s.os.globals.map (·.holdMs)).getD defaultHoldMs)

/-- The hold limit of the descriptor, for a read stretch (R71). A read opens in RUN, where the global
values are held. -/
def State.readHoldLimit (s : State) : Micros :=
  ms ((s.os.globals.map (·.holdMs)).getD defaultHoldMs)

/-! ## The journal (Chapter 1) -/

/-- The free count: 32 less the list length (R1). -/
def State.freeCount (s : State) : Nat := Config.journalSlots - s.journal.length

/-- The in-flight entry in a member's commit slot (R29). -/
def State.slotEntry (s : State) (m : MemberIx) : Option Entry :=
  s.journal.find? fun e => e.member == m && e.isInFlight

/-- The working values of a member's commit slot (R29). -/
def State.slot (s : State) (m : MemberIx) : Option Flight := (s.slotEntry m).bind Entry.flight?

/-- The member has an open upstream read transaction (R33, R57). -/
def State.readHold (s : State) (m : MemberIx) : Bool :=
  match s.read with
  | some r => r.member == m
  | none => false

/-- The list length is at or above the high-water mark (R18). -/
def State.atHighWater (s : State) : Bool :=
  match s.os.globals with
  | some g => decide (g.highWater ≤ s.journal.length)
  | none => false

/-- A PENDING entry is eligible (R18): its deadline has passed, the list is at the high-water mark, it is
marked, or the part is in FLUSH. -/
def State.eligible (s : State) (e : Entry) : Bool :=
  e.isPending &&
    (decide (e.deadline ≤ s.now) || s.atHighWater || e.marked || s.os.part == .flush)

/-- The journal offers the entry at a position (R19): it is eligible and, for a strict member, no entry
of the member stands before it. -/
def State.offered (s : State) (i : Nat) : Bool :=
  match s.journal[i]? with
  | some e =>
    s.eligible e &&
      (!(s.info e.member).strict || (s.journal.take i).all fun e' => e'.member != e.member)
  | none => false

/-- The member qualifies at a selection (R32). -/
def State.qualifies (s : State) (m : MemberIx) : Bool :=
  s.memberState m == .online && (s.slot m).isNone && !s.readHold m

/-- The part state allows a selection (R31, R34). -/
def State.maySelect (s : State) : Bool :=
  match s.os.part with
  | .run => true
  | .flush =>
    match s.drain.episode with
    | some ep => ep.budget == .running
    | none => true
  | _ => false

/-- The position of the entry a selection takes: the earliest offered entry of a qualifying member
(R32). -/
def State.selected? (s : State) : Option Nat :=
  (List.range s.journal.length).find? fun i =>
    s.offered i &&
      match s.journal[i]? with
      | some e => s.qualifies e.member
      | none => false

/-- The position of the last entry that meets a test. -/
def lastIdx? (p : Entry → Bool) : List Entry → Option Nat
  | [] => none
  | e :: rest =>
    match lastIdx? p rest with
    | some i => some (i + 1)
    | none => if p e then some 0 else none

/-- The position of the merge target of a hand-over: for a loose member its PENDING entry for the page
(R11); for a strict member its youngest entry, if that is PENDING and for the page (R12). -/
def State.mergeTarget (s : State) (m : MemberIx) (page : Nat) : Option Nat :=
  if (s.info m).strict then
    (lastIdx? (fun e => e.member == m) s.journal).filter fun i =>
      match s.journal[i]? with
      | some e => e.isPending && e.page == page
      | none => false
  else s.journal.findIdx? fun e => e.member == m && e.isPending && e.page == page

/-- The overlay: the byte of the youngest entry of the member that holds the member address valid
(R62). -/
def State.overlayByte (s : State) (m : MemberIx) (a : MemberAddr) : Option Byte :=
  s.journal.foldl
    (fun found e =>
      if e.member == m && e.page == (s.info m).pageOf a then
        match e.image.byteAt ((s.info m).offsetOf a) with
        | some b => some b
        | none => found
      else found)
    none

/-- The number of PENDING and in-flight entries (R146). -/
def State.unfinished (s : State) : Nat := s.journal.countP fun e => !e.isHeld

/-- A flush is complete (R145). -/
def State.flushComplete (s : State) : Bool := s.os.part == .flush && s.unfinished == 0

/-! ## The upstream engine (Chapter 5) -/

/-- An upstream transaction is open (R96). -/
def State.upstreamOpen (s : State) : Bool :=
  match s.up.phase with
  | .idle | .notAddressed => false
  | _ => true

/-- The reservation on one free slot: held in WRITE and nowhere else (R100). -/
def State.reserved (s : State) : Bool :=
  match s.up.phase with
  | .write _ => true
  | _ => false

/-- USCL is held low by the part: for a grant, for a downstream byte or acknowledge of a relay, or for a
read byte that is not yet available (R95). The hold on wake from DOZE begins and ends within one
event. -/
def State.usclHeld (s : State) : Bool :=
  match s.up.phase with
  | .relayWait _ _ _ => true
  | .relay r => r.step == .addressSent || r.step == .byteSent || r.step == .readDue
  | .read =>
    match s.read with
    | some r =>
      match r.cond with
      | .waiting _ _ => true
      | _ => false
    | none => false
  | _ => false

/-! ## The downstream controller (Chapter 6) -/

/-- The controller releases DSCL once for each act of its latest move, but for the release of both lines. -/
def State.movesMade (s : State) : Nat := s.ds.drive.countP (· != .release)

/-- The controller's latest move may still be going on: each release of DSCL in it comes within one period
of DSCL (R121), and a target may hold DSCL low for 25 ms after it (R127). -/
def State.moving (s : State) : Bool :=
  decide (s.now ≤ s.ds.moved + s.movesMade * (sclPeriod + stretchLimit))

/-- The controller's latest move may still be going on, and no row tells its end (R127; DESIGN CHOICE, log
entry 34). -/
def State.unfinishedMove (s : State) : Bool := s.ds.closing && s.moving

/-- The controller itself holds DSCL low, waiting on the host: in a relay without an abort mark, between
two bytes and before the downstream acknowledge slot of a read byte, once its own last slot is over (R124,
R125). -/
def State.dsclHeld (s : State) : Bool :=
  match s.up.phase with
  | .relay r =>
    r.mark == .clear &&
      match r.step with
      | .hostTurn | .readShown | .readDone | .restarted _ => true
      | .addressSent | .byteSent | .readDue => false
  | _ => false

/-- The controller holds the bus for this request (R119). -/
def State.inProgress (s : State) (r : Request) : Bool :=
  match s.ds.ctl with
  | .busy h => h.req == r
  | _ => false

/-- The waiting commit request of a class whose entry stands earliest in list order (R30). -/
def State.earliestOf (s : State) (c : CommitClass) : Option Request :=
  s.journal.findSome? fun e =>
    match e.flight? with
    | some f =>
      let r := f.stage.request e.member
      if r.commitClass == some c && s.ds.waiting.contains r then some r else none
    | none => none

/-- The commit request the arbiter would serve: poll, fill or verify read, issue (R122 rule 3). -/
def State.commitChoice (s : State) : Option Request :=
  (s.earliestOf .poll).or ((s.earliestOf .read).or (s.earliestOf .issue))

/-- The arbiter's choice among the waiting requests (R122). -/
def State.choice (s : State) : Option Request :=
  let upstream := s.ds.waiting.find? Request.isUpstream
  let commit := s.commitChoice
  let service := s.ds.waiting.find? Request.isService
  if s.ds.starvation = starvationLimit ∧ commit.isSome then commit
  else upstream.or (commit.or service)

/-- A fill or issue request of the commit engine is raised and waiting (R31). -/
def State.fillOrIssueWaiting (s : State) : Bool :=
  s.ds.waiting.any fun r =>
    match r with
    | .fillRead _ | .issue _ => true
    | _ => false

/-! ## The maintenance port (Chapter 10) -/

/-- The busy place holds a response (Table 10-1). -/
def Port.busyPlaceFull (p : Port) : Bool := p.tx.any fun o => o.place == .busy

/-- No maintenance command is in progress, no frame is being assembled and no response waits to be sent
(R174, R181). -/
def Port.quiet (p : Port) : Bool :=
  p.cmd.isNone && p.tx.isEmpty &&
    match p.rx with
    | .frame _ _ => false
    | _ => true

/-- The start-up or RELOAD access in progress: a descriptor read, or the probe of a member. -/
def State.startAccess (s : State) : Option Access :=
  match s.os.start with
  | some (.descriptorRead a) => some a
  | some (.probing _ a) => some a
  | _ => none

/-! ## DOZE (R174) -/

/-- The quiet conditions, in RUN or PASSTHROUGH with a non-zero quiesce time (R174). -/
def State.quiet (s : State) : Bool :=
  (s.os.part == .run || s.os.part == .passthrough) &&
    ((s.os.globals.map (·.quiesceMs)).getD 0 != 0) &&
    s.journal.isEmpty && !s.upstreamOpen && s.ds.ctl == .free && s.ds.waiting.isEmpty && s.port.quiet

/-! ## The output lines -/

/-- DRAINED is high exactly when no entry carries a mark (R140). In reset the journal is empty and the
line is released (R150). -/
def State.drainedHigh (s : State) : Bool := s.journal.all fun e => !e.marked

/-- The unread count (R152). -/
def State.unread (s : State) : Nat := s.log.countP fun r => !r.read

/-- A member is HELD. -/
def State.anyHeld (s : State) : Bool := s.members.any fun m => m.state == .held

/-- The invalid descriptor drives ALERT: in PASSTHROUGH for it, and in the STARTING of a RELOAD begun from
that PASSTHROUGH (R159, R172). -/
def State.invalidAlert (s : State) : Bool :=
  s.os.cause == some .invalid && (s.os.part == .passthrough || s.os.part == .starting)

/-- ALERT is driven low (R159); it is released while a reset is held (R160). -/
def State.alertLow (s : State) : Bool :=
  !s.inReset &&
    (s.anyHeld || s.os.part == .haltDown || s.invalidAlert ||
      (s.os.mode != .off && decide (1 ≤ s.unread)))

/-- READY is high (R165). -/
def State.readyHigh (s : State) : Bool := !s.inReset && s.os.everLeft

/-- MTX is high: nothing is being sent (R178). -/
def State.mtxIdle (s : State) : Bool := s.port.tx.isEmpty

end Sys2Proof.Machine
end

