-- ==== Sys2Proof/Machine/Ops.lean ====
section
/-! DEFINITION. The named operations that the meanings of the commands share: how an event is taken, the
clock, the fault log, the member table, the waiting set, the journal and its slots, and what the part
drives on its lines. -/

namespace Sys2Proof.Machine

/-- The outcome of a step of this part. -/
abbrev Result := Host.Outcome State Fault Refusal

/-! ## Taking an event -/

/-- The quiesce timer after an event: it runs, from the moment the last quiet condition became true,
while all of them hold, and is stopped and cleared otherwise (R174). -/
def State.settle (s : State) : State :=
  { s with os := { s.os with quiesce := if s.quiet then some (s.os.quiesce.getD s.now) else none } }

/-- An event other than a reset. While a reset is held the part takes none (R164). A body that answers
none says that the event is not one of this state, and nothing happens (DESIGN CHOICE, log entry 4). -/
def State.take (s : State) (body : State → Option State) : Result :=
  if s.inReset then .next s
  else
    match body s with
    | none => .next s
    | some t => .next t.settle

/-- The end of a downstream read for a holder that `mine` accepts. A completed read brings exactly the
bytes its transaction asked for (R121); another number is a fault. -/
def State.takeRead (s : State) (mine : Request → Bool) (report : ReadReport)
    (body : Holder → State → State) : Result :=
  if s.inReset then .next s
  else
    match s.ds.ctl with
    | .busy h =>
      if mine h.req then
        match h.txn, report with
        | .read _ _ n, .completed bytes =>
          if bytes.length = n then .next (body h s).settle else .fault .byteCount
        | _, _ => .next (body h s).settle
      else .next s
    | _ => .next s

/-! ## Time -/

/-- A timed event brings the time base to its due time, if that is still ahead (log entry 2). -/
def State.advanceTo (s : State) (t : Micros) : State := { s with now := max s.now t }

/-- One microsecond of the time base, which stands still while a reset is held (R156). -/
def State.tick (s : State) : State := if s.inReset then s else { s with now := s.now + 1 }

/-! ## The fault log (R154) -/

/-- A record joins the ring as the youngest. A full ring loses its oldest record, and the new record
carries LOST if that record was unread (R154). -/
def pushRecord (r : FaultRecord) : List FaultRecord → List FaultRecord
  | [] => [{ r with lost := false }]
  | old :: rest =>
    if rest.length + 1 < Config.ringSlots then old :: rest ++ [{ r with lost := false }]
    else rest ++ [{ r with lost := !old.read }]

/-- One record is written, stamped and unread (R154). -/
def State.record (s : State) (kind : FaultKind) (member : Option MemberIx) (page : Option Nat)
    (detail : Nat) : State :=
  { s with
    log := pushRecord
      { stamp := s.stamp, kind := kind, member := member, page := page,
        detail := BitVec.ofNat 8 detail, lost := false, read := false } s.log }

/-! ## What the part drives -/

/-- The part drives these answers and bytes on USDA, in order. -/
def State.say (s : State) (acts : List UpDrive) : State := { s with up := { s.up with drive := acts } }

/-- The part also drives these. -/
def State.alsoSay (s : State) (acts : List UpDrive) : State :=
  { s with up := { s.up with drive := s.up.drive ++ acts } }

/-- The controller begins to move the downstream lines at this moment (R127, R131). -/
def State.move (s : State) : State := { s with ds := { s.ds with moved := s.now } }

/-- The controller drives these on the downstream bus, in order, from this moment. -/
def State.drive (s : State) (acts : List DownDrive) : State :=
  { s with ds := { s.ds with drive := acts, moved := s.now } }

/-- No row tells the end of the controller's latest move (R127; DESIGN CHOICE, log entry 34). -/
def State.leaveOpen (s : State) : State := { s with ds := { s.ds with closing := true } }

/-- The controller drives these after its latest move. Where no row tells the end of that one and it may
still be going on, they wait for it, and the times are counted from its beginning (R125 to R127; DESIGN
CHOICE, log entry 34). -/
def State.follow (s : State) (acts : List DownDrive) : State :=
  { s with
    ds :=
      { s.ds with
        drive := if s.unfinishedMove then s.ds.drive ++ acts else acts
        moved := if s.unfinishedMove then s.ds.moved else s.now
        closing := false } }

/-! ## The upstream record -/

/-- The phase becomes this one. -/
def State.setPhase (s : State) (p : Phase) : State := { s with up := { s.up with phase := p } }

/-- The idle timer starts again at this moment (R113). -/
def State.startIdle (s : State) : State := { s with up := { s.up with idle := some s.now } }

/-- The idle timer is stopped (R113). -/
def State.stopIdle (s : State) : State := { s with up := { s.up with idle := none } }

/-- The record is idle: no direction, no idle timer (R96). -/
def State.toIdle (s : State) : State :=
  { s with up := { s.up with phase := .idle, dir := none, idle := none } }

/-- A START or repeated START has been taken: phase ADDRESS, the idle timer started (R96, R113). -/
def State.toAddress (s : State) : State :=
  { s with up := { s.up with phase := .address, dir := none, idle := some s.now } }

/-- The address byte is refused: NACK, and NOT_ADDRESSED, in which the idle timer does not run (R97,
R113). -/
def State.refuseAddress (s : State) : State :=
  { s with up := { s.up with phase := .notAddressed, idle := none, drive := [.nack] } }

/-! ## The member table -/

/-- A member's row changes. -/
def State.updateMember (s : State) (m : MemberIx) (f : Member → Member) : State :=
  { s with members := s.members.modify m.val f }

/-- A member's state changes. -/
def State.setMember (s : State) (m : MemberIx) (st : MemberState) : State :=
  s.updateMember m fun mem => { mem with state := st }

/-- A member's pointer changes (R89). -/
def State.setPointer (s : State) (m : MemberIx) (a : MemberAddr) : State :=
  s.updateMember m fun mem => { mem with pointer := a }

/-! ## The downstream controller -/

/-- The controller's condition changes. -/
def State.setCtl (s : State) (c : Controller) : State := { s with ds := { s.ds with ctl := c } }

/-- The controller is FREE (R119). -/
def State.freeBus (s : State) : State := { s with ds := { s.ds with ctl := .free, closing := false } }

/-- A relay gives up its grant with its STOP sent, and the controller is FREE (R126). The STOP may still be
held up (R127; DESIGN CHOICE, log entry 34). -/
def State.releaseRelay (s : State) : State :=
  { s with ds := { s.ds with ctl := .free, closing := true } }

/-- The controller waits for both lines to be high before the START of a chosen request (R130). A STOP
before it is over. -/
def State.openFor (s : State) (r : Request) : State :=
  { s with ds := { s.ds with ctl := .opening r s.now, closing := false } }

/-- The transaction ends with STOP, and both lines are released (R35, R121, R126). -/
def State.endTransaction (s : State) : State := s.freeBus.drive [.stop, .release]

/-- A request is raised, once (R120). -/
def State.raise (s : State) (r : Request) : State :=
  if s.ds.waiting.contains r then s
  else { s with ds := { s.ds with waiting := s.ds.waiting ++ [r] } }

/-- A waiting request is withdrawn. Where the controller is OPENING for it, no START is made and the
controller returns to FREE (R120, Table 6-1; DEDUCED, log entry 26). -/
def State.withdraw (s : State) (r : Request) : State :=
  { s with
    ds :=
      { s.ds with
        waiting := s.ds.waiting.filter (· != r)
        ctl :=
          match s.ds.ctl with
          | .opening r' t => if r' = r then .free else .opening r' t
          | c => c } }

/-! ## The journal and its slots -/

/-- The in-flight entry of a member changes. -/
def State.updateSlotEntry (s : State) (m : MemberIx) (f : Flight → Entry → Entry) : State :=
  { s with
    journal := s.journal.map fun e =>
      if e.member = m then
        match e.flight? with
        | some fl => f fl e
        | none => e
      else e }

/-- The working values of a member's slot change. -/
def State.updateFlight (s : State) (m : MemberIx) (g : Flight → Flight) : State :=
  s.updateSlotEntry m fun fl e => { e with state := .inFlight (g fl) }

/-- The request of the slot's next step is raised, but for an issue that the read hold keeps back
(R30, R33). -/
def State.raiseStep (s : State) (m : MemberIx) : State :=
  match s.slot m with
  | none => s
  | some f =>
    if f.stage == .issuing && s.readHold m then s else s.raise (f.stage.request m)

/-- The requests of a slot that wait are withdrawn (R47). -/
def State.withdrawSlot (s : State) (m : MemberIx) : State :=
  (((s.withdraw (.poll m)).withdraw (.fillRead m)).withdraw (.verifyRead m)).withdraw (.issue m)

/-! ## CYCLE and the read path's fetch (R60) -/

/-- The fetch of the open read changes its state. -/
def State.setFetch (s : State) (st : FetchState) : State :=
  { s with
    read := s.read.map fun r =>
      match r.cond with
      | .waiting t f => { r with cond := .waiting t { f with state := st } }
      | _ => r }

/-- The fetch that the open read of this member waits for. -/
def State.fetchOf (s : State) (m : MemberIx) : Option Fetch :=
  match s.read with
  | some r =>
    if r.member = m then
      match r.cond with
      | .waiting _ f => some f
      | _ => none
    else none
  | none => none

/-- The member enters CYCLE, and a fetch of it that waits or is due again is held for the cycle (R60). -/
def State.enterCycle (s : State) (m : MemberIx) : State :=
  let s := s.setMember m .cycle
  match s.fetchOf m with
  | some f =>
    match f.state with
    | .waitingGrant => (s.withdraw .fetch).setFetch .heldForCycle
    | .dueAgain _ => s.setFetch .heldForCycle
    | _ => s
  | none => s

/-- A member in CYCLE returns to ONLINE, and a fetch held for the cycle is raised at once (R60, R86). A
member in another state keeps it. -/
def State.leaveCycle (s : State) (m : MemberIx) : State :=
  if s.memberState m = .cycle then
    let s := s.setMember m .online
    match s.fetchOf m with
    | some f =>
      match f.state with
      | .heldForCycle => (s.setFetch .waitingGrant).raise .fetch
      | _ => s
    | none => s
  else s

/-! ## Attempts (R36, R47 to R49) -/

/-- The causes of a failed attempt (Table 2-4). -/
inductive Cause where
  | issueNack
  | writeNack
  | cycleTimeout
  | verifyMismatch
  | fillFail
  | downFault
deriving DecidableEq, Repr

/-- The detail value of a cause (Table 8-2). -/
def Cause.code : Cause → Nat
  | .issueNack => 1
  | .writeNack => 2
  | .cycleTimeout => 3
  | .verifyMismatch => 4
  | .fillFail => 5
  | .downFault => 6

/-- The exhaustion of the entry in a member's slot, as one event (R22, R49): every entry of the member
and the member become HELD, and ENTRY_HELD gives their number. -/
def State.exhaust (s : State) (m : MemberIx) (page : Nat) : State :=
  let t : State :=
    { s with
      journal := s.journal.map fun e => if e.member = m then { e with state := .held } else e }
  (t.setMember m .held).record .entryHeld (some m) (some page)
    (s.journal.countP fun e => e.member == m)

/-- A retry: the attempt is planned again from the unchanged valid mask, and its first transaction is due
at once (R48). -/
def State.retry (s : State) (m : MemberIx) : State :=
  (s.updateSlotEntry m fun _ e =>
      { e with state := .inFlight (planFlight (s.info m) e.image) }).raiseStep m

/-- A failed attempt of the entry in a member's slot, as one event (R47). -/
def State.failAttempt (s : State) (m : MemberIx) (cause : Cause) : State :=
  match s.slotEntry m with
  | none => s
  | some e =>
    let s := s.updateSlotEntry m fun _ e => { e with attempts := e.attempts + 1 }
    let s := s.record .attemptFailed (some m) (some e.page) cause.code
    let s := (s.leaveCycle m).withdrawSlot m
    if e.attempts + 1 ≤ (s.info m).retryLimit then s.retry m else s.exhaust m e.page

/-- A refused device address of a fill read, an issue or a verify read (R36): the transaction is due again
in 200 µs while the busy window lasts, and the attempt fails after it. `since` is the time of the
refused transaction's START, which stands for that of its device-address byte (log entry 5). -/
def State.busyRefused (s : State) (m : MemberIx) (since : Micros) (cause : Cause) : State :=
  match s.slot m with
  | none => s
  | some f =>
    let start := f.busyStart.getD since
    if s.now < start + ms (s.info m).cycleMs then
      s.updateFlight m fun f =>
        { f with busyStart := some start, due := some (s.now + pollInterval) }
    else s.failAttempt m cause

/-- The retirement of the entry in a member's slot, as one event (R21, R50): an open fetch buffer of the
member takes its bytes, and the entry leaves the list. -/
def State.retire (s : State) (m : MemberIx) : State :=
  match s.slotEntry m with
  | none => s
  | some e =>
    { s with
      read := s.read.map fun r =>
        if r.member = m then { r with buffer := r.buffer.map fun b => b.take (s.info m) e } else r
      journal := s.journal.filter fun e' => !(e'.member == m && e'.isInFlight) }

/-! ## Marks and merges -/

/-- Marking: every entry in the list is marked, in every state (R139). -/
def State.markAll (s : State) : State :=
  { s with journal := s.journal.map fun e => { e with marked := true } }

/-- A younger entry merged over an older one for the same page (R16, R24): its bytes replace, its mark is
carried, and the later deadline holds. -/
def Entry.mergeOver (older younger : Entry) : Entry :=
  { older with
    image := older.image.overlay younger.image
    marked := older.marked || younger.marked
    deadline := max older.deadline younger.deadline }

/-- An entry joins a list that has been merged so far: over the entry of the same member and page that
`sel` also picks, if there is one, and at the tail otherwise. -/
def joinMerged (sel : Entry → Bool) (done : List Entry) (e : Entry) : List Entry :=
  if sel e then
    match done.findIdx? fun o => sel o && o.member == e.member && o.page == e.page with
    | some i => done.modify i fun o => o.mergeOver e
    | none => done ++ [e]
  else done ++ [e]

/-- The same-page merge of the entries that `sel` picks, oldest first; the oldest for a page survives at
its position (R16, R24). -/
def mergeSamePage (sel : Entry → Bool) (l : List Entry) : List Entry :=
  l.foldl (joinMerged sel) []

/-! ## The open read (R58, R62, R73) -/

/-- A read enters UNDERRUN (R73): the buffer is discarded, the due byte is 0xFF, the stretch ends, and
the read's one READ_UNDERRUN record is written. `detail` is 1 for HOLD_EXPIRED, 2 for FETCH_FAILED. -/
def State.underrun (s : State) (detail : Nat) : State :=
  match s.read with
  | none => s
  | some r =>
    let page := (s.info r.member).pageOf (s.pointer r.member)
    let s := if r.recorded then s else s.record .readUnderrun (some r.member) (some page) detail
    ({ s with read := some { r with cond := .underrun, buffer := none, recorded := true } }.alsoSay
      [.byte 0xFF]).startIdle

/-- A failed fetch puts the read into UNDERRUN with FETCH_FAILED (R69). -/
def State.fetchFailed (s : State) : State := s.underrun 2

/-- The due byte is served as available: it is on USDA, the read is SERVING, and the idle timer runs
(R62, R71). -/
def State.serveByte (s : State) (b : Byte) : State := (s.alsoSay [.byte b]).startIdle

/-- The due byte of the open read is served from the first source that has it, or a fetch is requested
and the read waits (R62, R66, R69, R71). -/
def State.serveDue (s : State) : State :=
  match s.read with
  | none => s
  | some r =>
    let a := s.pointer r.member
    if r.cond = .underrun then s.serveByte 0xFF
    else
      match s.overlayByte r.member a with
      | some b => s.serveByte b
      | none =>
        match r.buffer.bind fun buf => buf.byteAt a with
        | some b => s.serveByte b
        | none =>
          if s.os.part = .haltDown then s.fetchFailed
          else if s.memberState r.member = .cycle then
            { s with
              read := some { r with cond := .waiting s.now { state := .heldForCycle, addr := a } }
            }.stopIdle
          else
            ({ s with
                read := some { r with cond := .waiting s.now { state := .waitingGrant, addr := a } }
              }.stopIdle).raise .fetch

/-- The issue of a member that is due, and neither raised nor in progress, is raised (R33). -/
def State.raiseHeldIssue (s : State) (m : MemberIx) : State :=
  match s.slot m with
  | some f =>
    if f.stage = .issuing ∧ f.due = none ∧ s.inProgress (.issue m) = false then s.raiseStep m else s
  | none => s

/-- The open read ends (R58): a fetch that is not in progress is withdrawn, the record and its buffer
cease to exist, and an issue the read hold kept back is raised. -/
def State.closeRead (s : State) : State :=
  match s.read with
  | none => s
  | some r => ({ s.withdraw .fetch with read := none }).raiseHeldIssue r.member

/-! ## The landing buffer and the hand-over (R10 to R16) -/

/-- A hand-over's bytes merged into the entry at a position (R13). -/
def State.mergeInto (s : State) (i : Nat) (l : Landing) : State :=
  { s with
    journal := s.journal.modify i fun e =>
      { e with
        image := e.image.overlay l.image
        deadline := s.now + ms (s.info l.member).dwellMs } }

/-- A new entry at the tail (R14), HELD for a HELD member (R15). -/
def State.allocate (s : State) (l : Landing) : State :=
  { s with
    journal := s.journal ++
      [{ member := l.member, page := l.page, image := l.image
         state := if s.memberState l.member = .held then .held else .pending
         attempts := 0, deadline := s.now + ms (s.info l.member).dwellMs, marked := false }] }

/-- The hand-over of the landing buffer to the journal, as one event (R10). -/
def State.handOver (s : State) (l : Landing) : State :=
  match s.mergeTarget l.member l.page with
  | some i => s.mergeInto i l
  | none => s.allocate l

/-- The landing buffer is emptied and bound to no page (R103). -/
def State.dropLanding (s : State) : State := { s with landing := none }

/-- The end of a write that PFAIL aborted: FLUSH_ABORT if a data byte had been stored (R114). -/
def State.endAborted (s : State) (w : OpenWrite) : State :=
  match w.mark, s.landing with
  | .pfail, some l =>
    if l.image.validCount = 0 then s
    else s.record .flushAbort (some l.member) (some l.page) l.image.validCount
  | _, _ => s

/-! ## The flush (R142) -/

/-- An open write takes the abort mark PFAIL, unless it is refused by protection (R114). -/
def State.abortWrite (s : State) : State :=
  match s.up.phase with
  | .write w => if w.mark = .clear then s.setPhase (.write { w with mark := .pfail }) else s
  | _ => s

/-- The part state changes. -/
def State.setPart (s : State) (p : PartState) : State := { s with os := { s.os with part := p } }

/-- A flush episode opens with its budget running (R142). -/
def State.openEpisode (s : State) : State :=
  { s with drain := { s.drain with episode := some { budget := .running, openedAt := s.now } } }

/-- The flush episode closes (R147). -/
def State.closeEpisode (s : State) : State := { s with drain := { s.drain with episode := none } }

/-- A PFAIL assertion taken in RUN, as one event (R142). -/
def State.enterFlush (s : State) : State := ((s.setPart .flush).markAll.openEpisode).abortWrite

/-- The part wakes from DOZE to the state it entered it from (R175), at once (DESIGN CHOICE, log entry
14). -/
def State.wake (s : State) : State :=
  if s.os.part = .doze then
    { s with os := { s.os with part := s.os.ret.getD .run, ret := none } }
  else s

/-! ## The maintenance port (R181) -/

/-- The command in progress is answered: its response is composed into the command place (R181). -/
def State.finish (s : State) (status : Status) (payload : List Byte) : State :=
  match s.port.cmd with
  | none => s
  | some c =>
    { s with
      port :=
        { s.port with
          cmd := some { c with job := .answered }
          tx := s.port.tx ++
            [{ place := .command
               response := { code := c.code, seq := c.seq, status := status, payload := payload } }] } }

/-- The command in progress ends REFUSED with a reason (R182). -/
def State.refuse (s : State) (reason : Byte) : State := s.finish .refused [reason]

/-- The progress of the command in progress. -/
def State.job (s : State) : Option Job := s.port.cmd.map (·.job)

/-- The progress of the command in progress changes. -/
def State.setJob (s : State) (j : Job) : State :=
  { s with port := { s.port with cmd := s.port.cmd.map fun c => { c with job := j } } }

/-! ## Accesses with a window (R84, R169) -/

/-- The request is granted: in progress, and the window opens at the first transaction (R84, R169). -/
def Access.granted (a : Access) (now : Micros) : Access :=
  { asking := .inProgress, window := some (a.window.getD now) }

/-- Another transaction is due 1 ms from now, provided that falls within the window (R84, R169; DEDUCED,
log entry 15). -/
def Access.retryFrom (a : Access) (now : Micros) : Access :=
  if now + accessRetry < a.window.getD now + accessWindow then
    { a with asking := .dueAt (now + accessRetry) }
  else { a with asking := .noMore }

/-- After a bus clear that succeeded: an aborted transaction is due again (R84, R169, R186). -/
def Access.afterBusClear (a : Access) (now : Micros) : Access :=
  if a.asking = .afterClear then a.retryFrom now else a

/-- The start-up access changes. -/
def State.setStartAccess (s : State) (a : Access) : State :=
  { s with
    os :=
      { s.os with
        start := s.os.start.map fun st =>
          match st with
          | .descriptorRead _ => .descriptorRead a
          | .probing m _ => .probing m a
          | st => st } }

/-- The request of the start-up access (Table 6-2). -/
def State.startRequest (s : State) : Option Request :=
  match s.os.start with
  | some (.descriptorRead _) => some (.descriptorRead .startUp)
  | some (.probing m _) => some (.probe m)
  | _ => none

/-- The start-up access makes its request, with its window as it stands. -/
def State.askStart (s : State) (window : Option Micros) : State :=
  match s.startRequest with
  | some r => (s.setStartAccess { asking := .waiting, window := window }).raise r
  | none => s

/-- The descriptor read of a command in progress, for READ_DESCRIPTOR and for the read-back of
WRITE_DESCRIPTOR (R186, R189). -/
def State.portAccess (s : State) : Option Access :=
  match s.job with
  | some (.readDescriptor a) => some a
  | some (.readBack _ a) => some a
  | _ => none

/-- The descriptor read of the command in progress changes. -/
def State.setPortAccess (s : State) (a : Access) : State :=
  match s.job with
  | some (.readDescriptor _) => s.setJob (.readDescriptor a)
  | some (.readBack image _) => s.setJob (.readBack image a)
  | _ => s

end Sys2Proof.Machine
end

