-- ==== Sys2Proof/Machine/Committing.lean ====
section
/-! DEFINITION. The commit engine: selection, fill, issue, poll, verify, and the timers of a commit slot
(Chapter 2). -/

namespace Sys2Proof.Machine

/-! ## Selection (R31, R32) -/

/-- A selection may be made (R31), but for the entry it takes. -/
def State.selectionOpen (s : State) : Bool :=
  s.maySelect && s.ds.ctl == .free && !s.fillOrIssueWaiting

/-- The selection of the entry at a position, as one event (R32): the entry enters its member's slot with
its attempt planned, and its first request is raised. -/
def State.selectAt (s : State) (i : Nat) (e : Entry) : State :=
  ({ s with
      journal :=
        s.journal.set i { e with state := .inFlight (planFlight (s.info e.member) e.image) } }).raiseStep
    e.member

/-- SELECTION (R31, R32). -/
def execSelection (s : State) : Result :=
  s.take fun s =>
    if s.selectionOpen then
      match s.selected? with
      | some i =>
        match s.journal[i]? with
        | some e => some (s.selectAt i e)
        | none => none
      | none => none
    else none

/-- DWELL_EXPIRY (R18): the time reaches the deadline of the entry at a position. Eligibility by dwell is a
condition on the deadline and the time, so nothing else is stored. -/
def execDwellExpiry (position : Nat) (s : State) : Result :=
  s.take fun s =>
    match s.journal[position]? with
    | some e => some (s.advanceTo e.deadline)
    | none => none

/-! ## The steps of an attempt -/

/-- A fill read completes (R39): the fill image is kept and the issue is due. -/
def State.fillDone (s : State) (m : MemberIx) (bytes : List Byte) : State :=
  (s.updateSlotEntry m fun f e =>
      { e with
        state :=
          .inFlight
            { f with
              stage := .issuing
              fillImage := some (gapImage (s.info m).pageSize e.image f.currentRun bytes)
              busyStart := none } }).raiseStep m

/-- The end of a fill read (R36, R39). -/
def State.fillEnded (s : State) (m : MemberIx) (since : Micros) (report : ReadReport) : State :=
  match report with
  | .completed bytes => s.fillDone m bytes
  | .nack .deviceW => s.busyRefused m since .fillFail
  | .nack _ => s.failAttempt m .fillFail

/-- The member of a fill read request. -/
def Request.fillMember : Request → Option MemberIx
  | .fillRead m => some m
  | _ => none

/-- FILL_READ_END (R39). -/
def execFillReadEnd (report : ReadReport) (s : State) : Result :=
  s.takeRead (fun r => r.fillMember.isSome) report fun h s =>
    match h.req.fillMember with
    | some m => s.endTransaction.fillEnded m h.since report
    | none => s

/-- An issue completes (R40): the entry is CYCLING, the member in CYCLE, the cycle starts at the STOP, and
a poll is due 200 µs after it. -/
def State.issueDone (s : State) (m : MemberIx) : State :=
  (s.updateFlight m fun f =>
      { f with
        stage := .cycling, busyStart := none, cycleStart := some s.now,
        due := some (s.now + pollInterval) }).enterCycle m

/-- The end of an issue (R36, R40, R41). The outcome is taken by the slot (R30): an empty slot takes
none. -/
def State.issueEnded (s : State) (m : MemberIx) (since : Micros) (report : WriteReport) : State :=
  match report with
  | .completed => if (s.slot m).isSome then s.issueDone m else s
  | .nack .deviceW => s.busyRefused m since .issueNack
  | .nack _ => s.failAttempt m .writeNack

/-- ISSUE_END (R40). -/
def execIssueEnd (report : WriteReport) (s : State) : Result :=
  s.take fun s =>
    match s.ds.ctl with
    | .busy h =>
      match h.req with
      | .issue m => some (s.endTransaction.issueEnded m h.since report)
      | _ => none
    | _ => none

/-- BUSY_REPEAT_DUE (R36): the refused fill read, issue or verify read is requested again, an issue
subject to the read hold (R33). -/
def execBusyRepeatDue (m : MemberIx) (s : State) : Result :=
  s.take fun s =>
    match s.slot m with
    | some f =>
      match f.due with
      | some t =>
        if f.stage = .cycling then none
        else some (((s.advanceTo t).updateFlight m fun f => { f with due := none }).raiseStep m)
      | none => none
    | none => none

/-- POLL_DUE (R42): the slot raises a poll request. -/
def execPollDue (m : MemberIx) (s : State) : Result :=
  s.take fun s =>
    match s.slot m with
    | some f =>
      match f.due with
      | some t =>
        if f.stage = .cycling then
          some (((s.advanceTo t).updateFlight m fun f => { f with due := none }).raiseStep m)
        else none
      | none => none
    | none => none

/-- The write cycle of a member's slot has reached its timeout (R43). -/
def State.cycleOver (s : State) (m : MemberIx) (f : Flight) : Bool :=
  decide (f.cycleStart.getD s.now + ms (s.info m).cycleMs ≤ s.now)

/-- The slot goes on after a cycle or a verify read: the stage and cursor given, with the next request
raised at once (R42, R44). -/
def State.nextStep (s : State) (m : MemberIx) (stage : Stage) (cursor : Nat) : State :=
  (s.updateFlight m fun f =>
      { f with
        stage := stage, cursor := cursor, busyStart := none, cycleStart := none,
        due := none }).raiseStep m

/-- A poll is acknowledged (R42): the member leaves CYCLE, and the next run is issued, the verify reads
begin, or the entry retires. -/
def State.cycleEnded (s : State) (m : MemberIx) (f : Flight) : State :=
  let s := s.leaveCycle m
  if f.atLastRun then
    if (s.info m).verify then s.nextStep m .verifying 0 else s.retire m
  else s.nextStep m .issuing (f.cursor + 1)

/-- The end of a poll (R42, R43). A NACK at or past the timeout fails the attempt. -/
def State.pollEnded (s : State) (m : MemberIx) (ack : Bool) : State :=
  match s.slot m with
  | none => s
  | some f =>
    if ack then s.cycleEnded m f
    else if s.cycleOver m f then s.failAttempt m .cycleTimeout
    else s.updateFlight m fun f => { f with due := some (s.now + pollInterval) }

/-- POLL_END (R42). -/
def execPollEnd (ack : Bool) (s : State) : Result :=
  s.take fun s =>
    match s.ds.ctl with
    | .busy h =>
      match h.req with
      | .poll m => some (s.endTransaction.pollEnded m ack)
      | _ => none
    | _ => none

/-- WRITE_CYCLE_TIMEOUT (R43): with no poll of the member in progress the attempt fails with
CYCLE_TIMEOUT; with one in progress its outcome decides. -/
def execWriteCycleTimeout (m : MemberIx) (s : State) : Result :=
  s.take fun s =>
    match s.slot m with
    | some f =>
      match f.cycleStart with
      | some t =>
        let s := s.advanceTo (t + ms (s.info m).cycleMs)
        if s.inProgress (.poll m) then some s else some (s.failAttempt m .cycleTimeout)
      | none => none
    | none => none

/-- The bytes of a verify read match what the attempt wrote in the run (R44). -/
def Entry.verifies (e : Entry) (f : Flight) (bytes : List Byte) : Bool :=
  bytes == runBytes e.image f f.currentRun

/-- The end of a verify read (R36, R44, R45). -/
def State.verifyEnded (s : State) (m : MemberIx) (since : Micros) (report : ReadReport) : State :=
  match s.slotEntry m, s.slot m with
  | some e, some f =>
    match report with
    | .completed bytes =>
      if e.verifies f bytes then
        if f.atLastRun then s.retire m else s.nextStep m .verifying (f.cursor + 1)
      else s.failAttempt m .verifyMismatch
    | .nack .deviceW => s.busyRefused m since .verifyMismatch
    | .nack _ => s.failAttempt m .verifyMismatch
  | _, _ => s

/-- The member of a verify read request. -/
def Request.verifyMember : Request → Option MemberIx
  | .verifyRead m => some m
  | _ => none

/-- VERIFY_READ_END (R44). -/
def execVerifyReadEnd (report : ReadReport) (s : State) : Result :=
  s.takeRead (fun r => r.verifyMember.isSome) report fun h s =>
    match h.req.verifyMember with
    | some m => s.endTransaction.verifyEnded m h.since report
    | none => s

end Sys2Proof.Machine
end

