-- ==== Sys2Proof/Machine/Reading.lean ====
section
/-! DEFINITION. Reads of journaled members through the journal (Chapter 3, R105). -/

namespace Sys2Proof.Machine

/-- A read of a journaled member opens on the ACK of its device-address byte (R): the read hold
withdraws a waiting issue, and the first byte is due in that slot (R33, R57, R61, R105). -/
def State.openRead (s : State) (m : MemberIx) : State :=
  (({ (s.setPhase .read).say [.ack] with
      read :=
        some { member := m, cond := .serving, buffer := none, recorded := false, ended := false }
    }.startIdle).withdraw (.issue m)).serveDue

/-- The busy policy at the device-address byte (R) of a journaled member (R59). -/
def State.busyPolicy (s : State) (m : MemberIx) : State :=
  if (s.slot m).isSome && !(s.info m).hold then s.refuseAddress else s.openRead m

/-- The READ phase ends by STOP or by a repeated START (R58, R105). -/
def State.endRead (s : State) : Ending → State
  | .stop => s.closeRead.toIdle
  | .repeatedStart => s.closeRead.toAddress

/-- READ_BYTE_ANSWER (R105): the pointer advances past the byte clocked out (R64); an ACK makes the next
byte due, and after a NACK no further byte is served (R58). A slot that the host clocks on after its NACK
changes nothing and does not restart the idle timer (R113; DESIGN CHOICE, log entry 37). -/
def execReadByteAnswer (ack : Bool) (s : State) : Result :=
  s.take fun s =>
    match s.up.phase, s.read with
    | .read, some r =>
      match r.cond with
      | .waiting _ _ => none
      | _ =>
        if r.ended then none
        else
          let next := (s.info r.member).nextInMember (s.pointer r.member)
          let s := (((s.setPointer r.member next).say []).startIdle)
          if ack then some s.serveDue else some { s with read := some { r with ended := true } }
    | _, _ => none

/-- READ_END (R58): the STOP or repeated START that ends an open read. -/
def execReadEnd (how : Ending) (s : State) : Result :=
  s.take fun s =>
    match s.up.phase with
    | .read => some (s.endRead how)
    | _ => none

/-- The end of a fetch for the read that waits for it (R67 to R69). -/
def State.fetchEnded (s : State) (report : ReadReport) : State :=
  match s.read with
  | some r =>
    match r.cond with
    | .waiting t f =>
      if f.state = .inProgress then
        match report with
        | .completed bytes =>
          let buffer : FetchBuffer := { start := f.addr, bytes := bytes }
          ({ s.say [] with read := some { r with cond := .serving, buffer := some buffer } }).serveByte
            ((buffer.byteAt (s.pointer r.member)).getD 0xFF)
        | .nack .deviceW =>
          { s with
            read :=
              some
                { r with
                  cond := .waiting t { f with state := .dueAgain (s.now + pollInterval) } } }
        | .nack _ => (s.say []).fetchFailed
      else s
    | _ => s
  | none => s

/-- FETCH_END (R68): a completion fills the buffer and serves the due byte, a busy refusal is due again in
200 µs (R67), another NACK fails the fetch (R69). The outcome of a fetch that no read waits for is
dropped. -/
def execFetchEnd (report : ReadReport) (s : State) : Result :=
  s.takeRead (fun r => r == .fetch) report fun _ s => s.endTransaction.fetchEnded report

/-- FETCH_DUE_AGAIN (R67): the fetch is raised again, unless the member is in CYCLE (R60). -/
def execFetchDueAgain (s : State) : Result :=
  s.take fun s =>
    match s.read with
    | some r =>
      match r.cond with
      | .waiting _ f =>
        match f.state with
        | .dueAgain t =>
          let s := s.advanceTo t
          if s.memberState r.member = .cycle then some (s.setFetch .heldForCycle)
          else some ((s.setFetch .waitingGrant).raise .fetch)
        | _ => none
      | _ => none
    | none => none

/-- READ_HOLD_EXPIRY (R72): the stretch ends in UNDERRUN with HOLD_EXPIRED. A fetch not yet granted is
withdrawn, and one in progress runs on with its bytes dropped. -/
def execReadHoldExpiry (s : State) : Result :=
  s.take fun s =>
    match s.read with
    | some r =>
      match r.cond with
      | .waiting t _ =>
        some ((((s.advanceTo (t + s.readHoldLimit)).withdraw .fetch).say []).underrun 1)
      | _ => none
    | none => none

end Sys2Proof.Machine
end

