-- ==== Sys2Proof/Machine/Upstream.lean ====
section
/-! DEFINITION. The upstream engine's own transactions: START and STOP, the classification of an address
byte, admission, writes to journaled members, and the idle limit (Chapter 5). -/

namespace Sys2Proof.Machine

/-! ## Classification (R97, R98) -/

/-- Admission at the device-address byte (W) of a journaled member (R100). The reservation is the WRITE
phase itself. -/
def State.admission (s : State) (m : MemberIx) : State :=
  if s.memberState m = .held ∨ s.freeCount = 0 then s.refuseAddress
  else
    ((s.setPhase (.write { member := m, word := [], dataCount := 0, mark := .clear })).say
      [.ack]).startIdle

/-- An address byte is to be relayed (R108): USCL is held, a relay request is raised, and the phase is
RELAY_WAIT. `inRun` says that the byte was taken in RUN. -/
def State.requestRelay (s : State) (dev : DevAddr) (inRun : Bool) : State :=
  (((s.setPhase (.relayWait dev inRun s.now)).say []).stopIdle).raise .relay

/-- The byte goes to a journaled member (R98). -/
def State.serveMember (s : State) (m : MemberIx) (dir : Dir) : State :=
  match dir with
  | .write => s.admission m
  | .read => s.busyPolicy m

/-- The classification of an address byte by the part state and, in RUN, by the member table (R97,
R98). -/
def State.classify (s : State) (dev : DevAddr) (dir : Dir) : State :=
  let s := { s with up := { s.up with dir := some dir } }
  match s.os.part with
  | .run =>
    match s.journaledAt dev with
    | some m => s.serveMember m dir
    | none => s.requestRelay dev true
  | .passthrough => s.requestRelay dev false
  | _ => s.refuseAddress

/-! ## Writes to journaled members (R101 to R104) -/

/-- The word address is complete (R101). -/
def State.wordComplete (s : State) (w : OpenWrite) : Bool :=
  decide ((s.info w.member).wordWidth ≤ w.word.length)

/-- The last word-address byte is acknowledged (R101, R90): the pointer is the word address modulo the
capacity, and the landing buffer is empty and bound to the pointer's page. -/
def State.bindLanding (s : State) (m : MemberIx) (word : List Byte) : State :=
  let r := s.info m
  let a := wordValue word % r.capacity
  { s.setPointer m a with
    landing :=
      some { member := m, page := r.pageOf a, image := PageImage.blank r.pageSize } }

/-- WORD_ADDRESS_BYTE (R101). -/
def execWordAddressByte (b : Byte) (s : State) : Result :=
  s.take fun s =>
    match s.up.phase with
    | .write w =>
      if s.wordComplete w then none
      else
        let w' : OpenWrite := { w with word := w.word ++ [b] }
        let s := ((s.setPhase (.write w')).say [.ack]).startIdle
        if s.wordComplete w' then some (s.bindLanding w.member w'.word) else some s
    | _ => none

/-- A data byte of a journaled write meets the descriptor region (R92): the member is the descriptor
device, and the pointer is below 0x0040. -/
def State.protectedWrite (s : State) (w : OpenWrite) : Bool :=
  (s.info w.member).bus == s.descriptorDev && decide (s.pointer w.member < 0x40)

/-- The refusal of a protected journaled write (R93). -/
def State.refuseProtected (s : State) (w : OpenWrite) : State :=
  ((((s.record .protectedWrite (some w.member)
        (some ((s.info w.member).pageOf (s.pointer w.member))) 0).dropLanding).setPhase
    (.write { w with mark := .prot })).say [.nack]).startIdle

/-- A data byte is stored at the pointer's offset and acknowledged, and the pointer moves on within the
page (R102, R90). -/
def State.storeByte (s : State) (w : OpenWrite) (b : Byte) : State :=
  let r := s.info w.member
  let a := s.pointer w.member
  let s : State :=
    { s.setPointer w.member (r.nextInPage a) with
      landing := s.landing.map fun l => { l with image := l.image.set (r.offsetOf a) (some b) } }
  ((s.setPhase (.write { w with dataCount := w.dataCount + 1 })).say [.ack]).startIdle

/-- WRITE_DATA_BYTE (R102): stored, unless an abort mark or the protection of the descriptor refuses it
(R92, R93, R114). -/
def execWriteDataByte (b : Byte) (s : State) : Result :=
  s.take fun s =>
    match s.up.phase with
    | .write w =>
      if s.wordComplete w then
        if w.mark ≠ .clear then some ((s.say [.nack]).startIdle)
        else if s.protectedWrite w then some (s.refuseProtected w)
        else some (s.storeByte w b)
      else none
    | _ => none

/-- What the end of a write makes of its landing buffer when it ends by STOP (R103). -/
def State.landWrite (s : State) (w : OpenWrite) : State :=
  match w.mark, s.landing with
  | .clear, some l => if l.image.validCount = 0 then s else s.handOver l
  | _, _ => s.endAborted w

/-- A STOP ends a WRITE phase (R103). -/
def State.stopWrite (s : State) (w : OpenWrite) : State := (s.landWrite w).dropLanding.toIdle

/-- A repeated START ends a WRITE phase: the write is abandoned, or it positioned a random read (R104,
R114). -/
def State.restartWrite (s : State) (w : OpenWrite) : State := (s.endAborted w).dropLanding.toAddress

/-- WRITE_STOP (R103). -/
def execWriteStop (s : State) : Result :=
  s.take fun s =>
    match s.up.phase with
    | .write w => some (s.stopWrite w)
    | _ => none

/-- WRITE_REPEATED_START (R104). -/
def execWriteRepeatedStart (s : State) : Result :=
  s.take fun s =>
    match s.up.phase with
    | .write w => some (s.restartWrite w)
    | _ => none

end Sys2Proof.Machine
end

