-- ==== Sys2Proof/Machine/Relay.lean ====
section
/-! DEFINITION. Relayed transactions, upstream and downstream side together (R107 to R112, R124 to R126),
with the protection of a relayed descriptor device (R92, R93). -/

namespace Sys2Proof.Machine

/-- The relay request is granted (R109, R124): START and the address byte go downstream, and USCL stays
held for the target's answer. -/
def State.startRelay (s : State) : State :=
  match s.up.phase with
  | .relayWait dev inRun _ =>
    ((s.setPhase
        (.relay
          { dev := dev, inRun := inRun, mark := .clear, step := .addressSent, word := [],
            count := 0 })).stopIdle).drive
      [.start, .address dev (s.up.dir.getD .write)]
  | _ => s

/-- A waiting relay is refused (R108): the request is withdrawn and the address byte is answered NACK. -/
def State.refuseRelay (s : State) : State := (s.withdraw .relay).refuseAddress

/-- RELAY_HOLD_EXPIRY (R108): a request not granted within the hold limit in force is refused. -/
def execRelayHoldExpiry (s : State) : Result :=
  s.take fun s =>
    match s.up.phase with
    | .relayWait _ _ t => some (s.advanceTo (t + s.relayHold)).refuseRelay
    | _ => none

/-! ## Protection of a relayed descriptor device (R92) -/

/-- The word address of a write segment modulo 512, the smallest capacity with two word-address bytes
(R92). -/
def OpenRelay.regionAddr (r : OpenRelay) : Nat := wordValue r.word % 512

/-- The next host byte of a write segment is a data byte of a write to the descriptor device that R92
refuses: the first byte of a write into the region, or the first byte that would leave the 64-byte block
in which the write began. -/
def State.relayProtected (s : State) (r : OpenRelay) : Bool :=
  r.inRun && s.up.dir == some .write && r.dev == s.descriptorDev && decide (2 ≤ r.word.length) &&
    if r.count = 0 then decide (r.regionAddr < 0x40) else (r.regionAddr + r.count) % 64 == 0

/-- The segment after one more host byte: a word-address byte, or a data byte. -/
def OpenRelay.advance (r : OpenRelay) (b : Byte) : OpenRelay :=
  if r.word.length < 2 then { r with word := r.word ++ [b] } else { r with count := r.count + 1 }

/-- The refusal of a protected relayed write (R93, R126): the byte is not sent, STOP goes downstream at
once, and the relay keeps its grant with nothing more sent. -/
def State.refuseRelayed (s : State) (r : OpenRelay) : State :=
  (((((s.record .protectedWrite (s.memberAt r.dev) (some (r.regionAddr / 64)) 0).setPhase
      (.relay { r with mark := .prot })).say [.nack]).startIdle).drive [.stop, .release]).leaveOpen

/-! ## The bytes of a relay (R109, R110, R125) -/

/-- RELAY_HOST_BYTE (R125): the byte goes downstream with USCL held, unless an abort mark or protection
refuses it. A relay with an abort mark answers NACK to every byte the host sends (R93, R112). In a relay with
no mark, a slot that the host clocks on after its NACK of a read byte changes nothing and does not restart the
idle timer (R113; DESIGN CHOICE, log entry 37). -/
def execRelayHostByte (b : Byte) (s : State) : Result :=
  s.take fun s =>
    match s.up.phase with
    | .relay r =>
      if r.mark ≠ .clear ∧ r.step = .readDone then some ((s.say [.nack]).startIdle)
      else if r.step ≠ .hostTurn then none
      else if r.mark ≠ .clear then some ((s.say [.nack]).startIdle)
      else if s.relayProtected r then some (s.refuseRelayed r)
      else
        some
          ((((s.setPhase (.relay { r.advance b with step := .byteSent })).say []).stopIdle).drive
            [.byte b])
    | _ => none

/-- The answer of the target is given to the host (R109). After an acknowledged address byte (R) the
first read byte is due at once and its clocking begins (R110); after a refused one the host has the turn,
as after every refused byte (R125; DESIGN CHOICE, log entry 29). -/
def State.answerRelay (s : State) (r : OpenRelay) (ack : Bool) : State :=
  let s := s.say [if ack then .ack else .nack]
  if ack ∧ r.step = .addressSent ∧ s.up.dir = some .read then
    ((s.setPhase (.relay { r with step := .readDue })).stopIdle).move
  else (s.setPhase (.relay { r with step := .hostTurn })).startIdle

/-- RELAY_TARGET_ANSWER (R109). -/
def execRelayTargetAnswer (ack : Bool) (s : State) : Result :=
  s.take fun s =>
    match s.up.phase with
    | .relay r =>
      if r.mark = .clear ∧ (r.step = .addressSent ∨ r.step = .byteSent) then
        some (s.answerRelay r ack)
      else none
    | _ => none

/-- RELAY_READ_BYTE (R110): the byte clocked in is on USDA and USCL is released. -/
def execRelayReadByte (b : Byte) (s : State) : Result :=
  s.take fun s =>
    match s.up.phase with
    | .relay r =>
      if r.mark = .clear ∧ r.step = .readDue then
        some (((s.setPhase (.relay { r with step := .readShown })).say [.byte b]).startIdle)
      else none
    | _ => none

/-- The host's answer of a relayed read byte (R110), given in the downstream slot too (R125). No row tells
the end of the slot of a last byte (log entry 34). In a failed relay it is passed nowhere, and the next
byte is 0xFF at once (R112). -/
def State.hostAnswered (s : State) (r : OpenRelay) (ack : Bool) : State :=
  if r.mark = .clear then
    let s := (s.say []).drive [if ack then .ack else .nack]
    if ack then (s.setPhase (.relay { r with step := .readDue })).stopIdle
    else ((s.setPhase (.relay { r with step := .readDone })).startIdle).leaveOpen
  else if ack then (s.say [.byte 0xFF]).startIdle
  else ((s.setPhase (.relay { r with step := .readDone })).say []).startIdle

/-- RELAY_HOST_READ_ANSWER (R110). A slot after the host's own NACK changes nothing (DESIGN CHOICE, log entry
37). -/
def execRelayHostReadAnswer (ack : Bool) (s : State) : Result :=
  s.take fun s =>
    match s.up.phase with
    | .relay r => if r.step = .readShown then some (s.hostAnswered r ack) else none
    | _ => none

/-! ## The end of a relay (R111, R112, R126) -/

/-- The downstream side ends with the host's STOP, or with a repeated START that is not relayed again
(R126), after a slot of the last read byte that is still held up. A relay refused by protection has had its
STOP and only gives up its grant; a failed relay has neither. -/
def State.endDownstream (s : State) (r : OpenRelay) : State :=
  match r.mark with
  | .failed => s
  | .prot => s.releaseRelay
  | _ => (s.follow [.stop, .release]).releaseRelay

/-- The downstream acknowledge slot of a read byte is pending: the host has not answered the byte, or has
cut it short with a repeated START whose address byte is to come (R125). -/
def RelayStep.slotPending : RelayStep → Bool
  | .readShown => true
  | .restarted pending => pending
  | _ => false

/-- A STOP ends a RELAY phase (R111, R126). Where a read byte's downstream slot is still pending, the STOP
is made with no answer in the slot: the spec gives the answer NACK at idle expiry only (DESIGN CHOICE, log
entry 35). -/
def State.stopRelay (s : State) (r : OpenRelay) : State := (s.endDownstream r).toIdle

/-- RELAY_STOP (R126). -/
def execRelayStop (s : State) : Result :=
  s.take fun s =>
    match s.up.phase with
    | .relay r => some (s.stopRelay r)
    | _ => none

/-- The address byte after a repeated START is relayed again (R111): by the part state, and in RUN by the
member table. -/
def State.relaysAgain (s : State) (dev : DevAddr) : Bool :=
  match s.os.part with
  | .passthrough => true
  | .run => (s.journaledAt dev).isNone
  | _ => false

/-- The address byte after a repeated START in a RELAY phase (R111), whose bit is the direction (R95). A
relay with an abort mark answers it NACK and sends nothing (R93, R112). Where a read byte's downstream slot
is still pending, the repeated START or the STOP is made with no answer in the slot (DESIGN CHOICE, log
entry 35). -/
def State.relayAddress (s : State) (r : OpenRelay) (dev : DevAddr) (dir : Dir) : State :=
  let s := { s with up := { s.up with dir := some dir } }
  if r.mark ≠ .clear then
    ((s.setPhase (.relay { r with step := .hostTurn })).say [.nack]).startIdle
  else if s.relaysAgain dev then
    (((s.setPhase
          (.relay
            { dev := dev, inRun := s.os.part == .run, mark := .clear, step := .addressSent,
              word := [], count := 0 })).say []).stopIdle).follow
      [.repeatedStart, .address dev dir]
  else (s.endDownstream r).classify dev dir

/-- RELAY_REPEATED_START (R111): the repeated START with the address byte that follows it. -/
def execRelayRepeatedStart (dev : DevAddr) (dir : Dir) (s : State) : Result :=
  s.take fun s =>
    match s.up.phase with
    | .relay r => some (s.relayAddress r dev dir)
    | _ => none

/-! ## The fault of a relay (R112) -/

/-- The relay's transaction has been aborted (R112): mark FAILED, NACK to a byte whose answer was awaited,
0xFF for a read byte being clocked. -/
def State.failRelay (s : State) : State :=
  match s.up.phase with
  | .relay r =>
    match r.step with
    | .addressSent | .byteSent =>
      ((s.setPhase (.relay { r with mark := .failed, step := .hostTurn })).say [.nack]).startIdle
    | .readDue =>
      ((s.setPhase (.relay { r with mark := .failed, step := .readShown })).say
        [.byte 0xFF]).startIdle
    | _ => s.setPhase (.relay { r with mark := .failed })
  | _ => s

/-! ## START, STOP and the idle limit on the upstream bus -/

/-- UPSTREAM_START (R96, R116): a START, or in every phase but IDLE a repeated START, which ends an open
write or read (R104, R58) and in RELAY waits for its address byte (R111). In DOZE it wakes the part. USCL
is held in RELAY_WAIT, so no START comes there. -/
def execUpstreamStart (s : State) : Result :=
  s.take fun s =>
    match s.up.phase with
    | .idle | .address | .notAddressed => some ((s.wake).toAddress)
    | .write w => some (s.restartWrite w)
    | .read => some (s.endRead .repeatedStart)
    | .relay r =>
      some ((s.setPhase (.relay { r with step := .restarted r.step.slotPending })).startIdle)
    | .relayWait _ _ _ => none

/-- ADDRESS_BYTE (R97): the byte is classified at its acknowledge slot. Where the repeated START of a relay
was seen by itself, its address byte is taken as R111 states. -/
def execAddressByte (dev : DevAddr) (dir : Dir) (s : State) : Result :=
  s.take fun s =>
    match s.up.phase with
    | .address => some (s.classify dev dir)
    | .relay r =>
      match r.step with
      | .restarted _ => some (s.relayAddress r dev dir)
      | _ => none
    | _ => none

/-- UPSTREAM_STOP (R96): a STOP in ADDRESS or NOT_ADDRESSED takes the phase to IDLE; in the other phases
it is the STOP of that phase (R103, R58, R126). -/
def execUpstreamStop (s : State) : Result :=
  s.take fun s =>
    match s.up.phase with
    | .idle | .relayWait _ _ _ => none
    | .address | .notAddressed => some s.toIdle
    | .write w => some (s.stopWrite w)
    | .read => some (s.endRead .stop)
    | .relay r => some (s.stopRelay r)

/-- The page an UP_TIMEOUT of a WRITE phase names: that of the landing buffer, which is the page of the
pointer, where the word address was complete (R113; DEDUCED, log entry 19). -/
def State.timeoutPage (s : State) (w : OpenWrite) : Option Nat :=
  if s.wordComplete w then some ((s.info w.member).pageOf (s.pointer w.member)) else none

/-- The downstream side of a relay that the idle limit ends (R113, R126): a read byte whose downstream slot
is pending is answered NACK before the STOP. -/
def State.idleRelay (s : State) (r : OpenRelay) : State :=
  if r.mark = .clear ∧ r.step.slotPending = true then
    (s.drive [.nack, .stop, .release]).releaseRelay
  else s.endDownstream r

/-- The expiry of the idle timer, by phase (R113). -/
def State.idleExpired (s : State) : State :=
  match s.up.phase with
  | .write w =>
    (((s.endAborted w).dropLanding).record .upTimeout (some w.member) (s.timeoutPage w) 0).toIdle
  | .read =>
    match s.read with
    | some r =>
      (s.closeRead.record .upTimeout (some r.member)
        (some ((s.info r.member).pageOf (s.pointer r.member))) 0).toIdle
    | none => s.toIdle
  | .relay r => ((s.idleRelay r).record .upTimeout none none 0).toIdle
  | _ => s.toIdle

/-- UP_TIMEOUT (R113): 35 ms of host inactivity release the lines and end the phase. -/
def execUpTimeout (s : State) : Result :=
  s.take fun s =>
    match s.up.idle with
    | some t => some ((s.advanceTo (t + idleLimit)).say []).idleExpired
    | none => none

end Sys2Proof.Machine
end

