-- ==== Sys2Proof/Machine/Starting.lean ====
section
/-! DEFINITION. Resets, the MSEL window, the start sequence, the descriptor read and the probe
(Chapter 9, R84). -/

namespace Sys2Proof.Machine

/-! ## Leaving STARTING (R167, R165) -/

/-- The end of a RELOAD or LEAVE_PASSTHROUGH: OK with its reason code (R191). -/
def State.answerReload (s : State) (reason : Nat) : State :=
  if s.job = some .reloading then s.finish .ok [BitVec.ofNat 8 reason] else s

/-- The part leaves STARTING for this state: READY rises (R165). -/
def State.departTo (s : State) (p : PartState) (cause : Option PassCause) : State :=
  { s with os := { s.os with part := p, cause := cause, start := none, everLeft := true } }

/-- The entry to the prepared state (R167 step 8). An entry to RUN with PFAIL asserted goes on to FLUSH
(R149). -/
def State.depart (s : State) : Prepared → State
  | .run =>
    let s := (s.departTo .run none).answerReload 0
    if s.drain.pfailAsserted then s.enterFlush else s
  | .passStrap => s.departTo .passthrough (some .strap)
  | .passInvalid reason => (s.departTo .passthrough (some .invalid)).answerReload reason

/-- The part leaves STARTING once its state is prepared and the MSEL window has ended (R167). -/
def State.leaveIfReady (s : State) : State :=
  match s.os.part, s.os.start, s.os.msel with
  | .starting, some (.leaving d), none => s.depart d
  | _, _, _ => s

/-- The state for the end of STARTING is prepared (R167). -/
def State.prepare (s : State) (d : Prepared) : State :=
  { s with os := { s.os with start := some (.leaving d) } }.leaveIfReady

/-! ## The probe (R84) and the descriptor (R169 to R171) -/

/-- The probe moves on to the next journaled member, from index `n`, and after the last RUN is prepared
(R84, R171). -/
def State.probeNext (s : State) (n : Nat) : State :=
  match s.nextProbed n with
  | some m =>
    { s with
      os := { s.os with start := some (.probing m { asking := .waiting, window := none }) } }.raise
      (.probe m)
  | none => s.prepare .run

/-- An invalid descriptor (R171): DESCRIPTOR_INVALID with the reason code, and PASSTHROUGH is prepared. -/
def State.rejectDescriptor (s : State) (reason : Nat) : State :=
  (s.record .descriptorInvalid none none reason).prepare (.passInvalid reason)

/-- A valid descriptor is taken (R171, R78): the used records with state none and pointer 0, and the
global values. The table is filled here, before the probe, though R78 also says of a RELOAD that it is
empty while the probe runs (DESIGN CHOICE, log entry 36). A PASSTHROUGH cause that a RELOAD kept ends
(R172). -/
def State.acceptDescriptor (s : State) (image : List Byte) : State :=
  ({ s with
      members := (usedRecords image).map fun r => { info := r, state := .unset, pointer := 0 }
      os := { s.os with globals := some (readGlobals image), cause := none } }).probeNext 0

/-- The outcome of validation (R170, R171). -/
def State.takeDescriptor (s : State) (image : List Byte) : State :=
  match validate s.os.ads image with
  | some reason => s.rejectDescriptor reason
  | none => s.acceptDescriptor image

/-- The descriptor read of start-up or of a RELOAD is requested (R169). -/
def State.requestDescriptor (s : State) : State :=
  { s with
    os :=
      { s.os with
        start := some (.descriptorRead { asking := .waiting, window := none }) } }.raise
    (.descriptorRead .startUp)

/-- Start-up goes on at step 4 after its bus clear (R167, R168). -/
def State.continueStart (s : State) : State :=
  if s.os.passHigh then s.prepare .passStrap else s.requestDescriptor

/-! ## Resets (R164) -/

/-- A RESET line reset or a SOFT_RESET: every value at its reset value, but for the fault log, which is
kept, and the mode given. RESET_DISCARD counts the entries lost (R26, R161, R163). -/
def State.resetPart (s : State) (mode : Mode) (plus : Nat) : State :=
  let t : State :=
    { State.reset with
      pending := s.pending, log := s.log, os := { State.reset.os with mode := mode } }
  if s.journal.isEmpty then t
  else t.record .resetDiscard none none (s.journal.length + plus)

/-- The release of a reset (R166, R167, R176): the levels are sampled, the MSEL window opens but after a
SOFT_RESET, and bus clear begins. -/
def State.release (s : State) (soft : Bool) (p : Pins) : State :=
  { s with
    now := 0
    inReset := false
    os :=
      { s.os with
        ads := p.ads, passHigh := p.passHigh, mselHigh := p.mselHigh, start := some .busClear,
        msel := if soft then none else some 0 }
    drain := { s.drain with drainHigh := p.drainHigh, pfailAsserted := p.pfailAsserted }
    ds := { s.ds with ctl := .clearing, drive := [.release], moved := 0 }
    port := { s.port with rx := if s.os.mode = .off then .stopped else .hunt } }

/-- POWER_ON_RESET (R164): every value at its reset value, the fault log emptied, no record (R161). -/
def execPowerOnReset (s : State) : Result := .next { State.reset with pending := s.pending }

/-- RESET_LINE_ASSERTED (R164): the part is reset and held in reset; the mode returns to OFF. -/
def execResetLineAsserted (s : State) : Result := .next (s.resetPart .off 0)

/-- RESET_RELEASE (R164, R167): the end of a reset that is held. -/
def execResetRelease (p : Pins) (s : State) : Result :=
  if s.inReset then .next (s.release false p) else .next s

/-! ## The MSEL window (R166) -/

/-- MSEL_PULSE (R166): one more pulse while the window is open; ignored after it. -/
def execMselPulse (s : State) : Result :=
  s.take fun s =>
    match s.os.msel with
    | some n => some { s with os := { s.os with msel := some (n + 1), mselHigh := true } }
    | none => none

/-- The mode a pulse count gives (Table 9-3). -/
def modeOfPulses (n : Nat) : Mode :=
  if n = 3 then .monitor else if n = 5 then .service else .off

/-- MSEL_WINDOW_END (R166): the count sets the mode, a count other than 0, 3 or 5 writes MSEL_INVALID, the
receiver opens (R176), and a prepared part leaves STARTING (R167). -/
def execMselWindowEnd (s : State) : Result :=
  s.take fun s =>
    match s.os.msel with
    | none => none
    | some n =>
      let s := s.advanceTo mselWindow
      let mode := modeOfPulses n
      let s : State :=
        { s with
          os := { s.os with msel := none, mode := mode }
          port := { s.port with rx := if mode = .off then .stopped else .hunt } }
      let s :=
        if n = 0 ∨ n = 3 ∨ n = 5 then s else s.record .mselInvalid none none (min n 255)
      some s.leaveIfReady

/-! ## The descriptor read (R169, R186) -/

/-- The request is a descriptor read. -/
def Request.isDescriptorRead : Request → Bool
  | .descriptorRead _ => true
  | _ => false

/-- The end of a descriptor read of start-up or RELOAD (R169). A read whose window has ended is no longer
asked for, and its outcome is dropped. -/
def State.startReadEnd (s : State) (report : ReadReport) : State :=
  match s.os.start with
  | some (.descriptorRead a) =>
    if a.asking = .inProgress then
      match report with
      | .completed bytes => s.takeDescriptor bytes
      | .nack .deviceW => s.setStartAccess (a.retryFrom s.now)
      | .nack _ => s.rejectDescriptor 1
    else s
  | _ => s

/-- A descriptor read of a command completes (R186, R189). -/
def State.portReadDone (s : State) (bytes : List Byte) : State :=
  match s.job with
  | some (.readDescriptor _) => s.finish .ok bytes
  | some (.readBack image _) =>
    if bytes = image then s.finish .ok [] else s.refuse reasonVerifyFailed
  | _ => s

/-- The end of a descriptor read of READ_DESCRIPTOR or of the read-back of WRITE_DESCRIPTOR (R186). -/
def State.portReadEnd (s : State) (report : ReadReport) : State :=
  match s.portAccess with
  | some a =>
    if a.asking = .inProgress then
      match report with
      | .completed bytes => s.portReadDone bytes
      | .nack .deviceW => s.setPortAccess (a.retryFrom s.now)
      | .nack _ => s.refuse reasonAccessFailed
    else s
  | none => s

/-- DESCRIPTOR_READ_END (R169, R186): the outcome goes to the one that asked. -/
def execDescriptorReadEnd (report : ReadReport) (s : State) : Result :=
  s.takeRead Request.isDescriptorRead report fun h s =>
    if h.req = .descriptorRead .startUp then s.endTransaction.startReadEnd report
    else s.endTransaction.portReadEnd report

/-- DESCRIPTOR_READ_RETRY_DUE (R169, R186): another transaction is requested, within the window. A command
that needs the access in HALT_DOWN fails at once (R133). -/
def execDescriptorReadRetryDue (s : State) : Result :=
  s.take fun s =>
    match s.os.start, s.portAccess with
    | some (.descriptorRead a), _ =>
      match a.asking with
      | .dueAt t =>
        let s := s.advanceTo t
        if s.now < a.window.getD s.now + accessWindow then some (s.askStart a.window)
        else some (s.setStartAccess { a with asking := .noMore })
      | _ => none
    | _, some a =>
      match a.asking with
      | .dueAt t =>
        let s := s.advanceTo t
        if s.os.part = .haltDown then some (s.refuse reasonAccessFailed)
        else if s.now < a.window.getD s.now + accessWindow then
          some ((s.setPortAccess { a with asking := .waiting }).raise (.descriptorRead .port))
        else some (s.setPortAccess { a with asking := .noMore })
      | _ => none
    | _, none => none

/-- ANSWER_WINDOW_END (R169, R186): the read fails. Start-up takes it as check 1 of validation (R170), a
command ends with ACCESS_FAILED. So also at once where the window ends while a transaction is in progress
or while bus clear runs, after a stuck bus or an abort (DESIGN CHOICE, log entry 17). -/
def execAnswerWindowEnd (s : State) : Result :=
  s.take fun s =>
    match s.os.start, s.portAccess with
    | some (.descriptorRead a), _ =>
      match a.window with
      | some w =>
        some (((s.advanceTo (w + accessWindow)).withdraw (.descriptorRead .startUp)).rejectDescriptor 1)
      | none => none
    | _, some a =>
      match a.window with
      | some w =>
        some (((s.advanceTo (w + accessWindow)).withdraw (.descriptorRead .port)).refuse
          reasonAccessFailed)
      | none => none
    | _, none => none

/-! ## The probe (R84) -/

/-- The end of a probe transaction of a member whose probe is in progress (R84). -/
def State.probeEnded (s : State) (m : MemberIx) (ack : Bool) : State :=
  match s.os.start with
  | some (.probing m' a) =>
    if m' = m ∧ a.asking = .inProgress then
      if ack then (s.setMember m .online).probeNext (m.val + 1)
      else s.setStartAccess (a.retryFrom s.now)
    else s
  | _ => s

/-- PROBE_END (R84): on an acknowledge the member is ONLINE and the next is probed. -/
def execProbeEnd (ack : Bool) (s : State) : Result :=
  s.take fun s =>
    match s.ds.ctl with
    | .busy h =>
      match h.req with
      | .probe m => some (s.endTransaction.probeEnded m ack)
      | _ => none
    | _ => none

/-- PROBE_RETRY_DUE (R84): another probe transaction is requested, within the window. -/
def execProbeRetryDue (s : State) : Result :=
  s.take fun s =>
    match s.os.start with
    | some (.probing _ a) =>
      match a.asking with
      | .dueAt t =>
        let s := s.advanceTo t
        if s.now < a.window.getD s.now + accessWindow then some (s.askStart a.window)
        else some (s.setStartAccess { a with asking := .noMore })
      | _ => none
    | _ => none

/-- PROBE_WINDOW_END (R84): the member is OFFLINE, MEMBER_OFFLINE is written, and the next is probed. A
transaction in progress runs on with its outcome dropped, and a window that ends while bus clear runs, with
the probe's request waiting since a stuck bus or its next transaction awaited after an abort, makes the
member OFFLINE at once: it does not wait for the outcome of the bus clear (DESIGN CHOICE, log entry 17). -/
def execProbeWindowEnd (s : State) : Result :=
  s.take fun s =>
    match s.os.start with
    | some (.probing m a) =>
      match a.window with
      | some w =>
        let s := (s.advanceTo (w + accessWindow)).withdraw (.probe m)
        some (((s.setMember m .offline).record .memberOffline (some m) none 0).probeNext (m.val + 1))
      | none => none
    | _ => none

end Sys2Proof.Machine
end

