-- ==== Sys2Proof/Machine/BusControl.lean ====
section
/-! DEFINITION. The downstream controller: the arbiter's choice and the grant, the line check, fault
aborts, bus clear and the halted bus (Chapter 6, R52, R84, R169). -/

namespace Sys2Proof.Machine

/-! ## Transactions of the requests (R121, R35, R67) -/

/-- The transaction of a read of a run of a member's entry. -/
def State.runRead (s : State) (m : MemberIx) : Transaction :=
  match s.slotEntry m, s.slot m with
  | some e, some f =>
    .read (s.info m).bus
      ((s.info m).wordBytes ((s.info m).addrOf e.page f.currentRun.start)) f.currentRun.len
  | _, _ => .addressOnly (s.info m).bus

/-- The transaction of an issue: the run's bytes at the run's word address (R35). -/
def State.issueWrite (s : State) (m : MemberIx) : Transaction :=
  match s.slotEntry m, s.slot m with
  | some e, some f =>
    .write (s.info m).bus
      ((s.info m).wordBytes ((s.info m).addrOf e.page f.currentRun.start))
      (runBytes e.image f f.currentRun)
  | _, _ => .addressOnly (s.info m).bus

/-- The transaction of a fetch (R67). -/
def State.fetchRead (s : State) : Transaction :=
  match s.read with
  | some r =>
    match r.cond with
    | .waiting _ f =>
      .read (s.info r.member).bus ((s.info r.member).wordBytes f.addr)
        ((s.info r.member).fetchLen f.addr)
    | _ => .addressOnly (s.info r.member).bus
  | none => .addressOnly 0

/-- The write of a descriptor block: 8 bytes at word address 8k (R189). -/
def State.blockWrite (s : State) : Transaction :=
  match s.job with
  | some (.writeBlock image k _) =>
    .write s.descriptorDev [0x00, BitVec.ofNat 8 (8 * k)] ((image.drop (8 * k)).take 8)
  | _ => .addressOnly s.descriptorDev

/-- The transaction a request wants (Table 6-3). -/
def State.transaction (s : State) : Request → Transaction
  | .relay => .relay
  | .fetch => s.fetchRead
  | .poll m => .addressOnly (s.info m).bus
  | .fillRead m => s.runRead m
  | .verifyRead m => s.runRead m
  | .issue m => s.issueWrite m
  | .probe m => .addressOnly (s.info m).bus
  | .descriptorRead _ => .read s.descriptorDev [0x00, 0x00] Config.descriptorBytes
  | .descriptorWrite => s.blockWrite
  | .descriptorPoll => .addressOnly s.descriptorDev

/-- The member that a fault of a request's transaction names (R129). -/
def State.faultMember (s : State) : Request → Option MemberIx
  | .fetch => s.read.map (·.member)
  | .poll m => some m
  | .fillRead m => some m
  | .verifyRead m => some m
  | .issue m => some m
  | .probe m => some m
  | _ => none

/-- The page that a fault of a request's transaction names (R129): the entry's page, or for a fetch the
page of the fetch address. -/
def State.faultPage (s : State) : Request → Option Nat
  | .fetch =>
    match s.read with
    | some r =>
      match r.cond with
      | .waiting _ f => some ((s.info r.member).pageOf f.addr)
      | _ => none
    | none => none
  | .poll m => (s.slotEntry m).map (·.page)
  | .fillRead m => (s.slotEntry m).map (·.page)
  | .verifyRead m => (s.slotEntry m).map (·.page)
  | .issue m => (s.slotEntry m).map (·.page)
  | _ => none

/-! ## The grant (R122, R123) -/

/-- The starvation counter after a grant, from the requests waiting at the moment of the START (R123). -/
def State.starvationAfter (s : State) (r : Request) : Nat :=
  if r.isUpstream then
    if s.ds.waiting.any Request.isCommit then min starvationLimit (s.ds.starvation + 1) else 0
  else if r.isCommit then 0
  else s.ds.starvation

/-- What the grant does at the one that asked: a relay joins the buses (R109), a fetch or an access is in
progress (R84, R169), a block's write notes its first device-address byte (R189). -/
def State.grantTo (s : State) : Request → State
  | .relay => s.startRelay
  | .fetch => s.setFetch .inProgress
  | .probe _ | .descriptorRead .startUp =>
    match s.startAccess with
    | some a => s.setStartAccess (a.granted s.now)
    | none => s
  | .descriptorRead .port =>
    match s.portAccess with
    | some a => s.setPortAccess (a.granted s.now)
    | none => s
  | .descriptorWrite =>
    match s.job with
    | some (.writeBlock image k (.writing _ first)) =>
      s.setJob (.writeBlock image k (.writing .inProgress (some (first.getD s.now))))
    | _ => s
  | .descriptorPoll =>
    match s.job with
    | some (.writeBlock image k (.polling _ stopAt)) =>
      s.setJob (.writeBlock image k (.polling .inProgress stopAt))
    | _ => s
  | _ => s

/-- The START of a request is the grant (R122): the request leaves the waiting set, its transaction is in
progress, and the starvation counter changes. -/
def State.grant (s : State) (r : Request) : State :=
  let holder : Holder :=
    { req := r, txn := s.transaction r, member := s.faultMember r, page := s.faultPage r,
      since := s.now }
  ({ s with
      ds :=
        { ctl := .busy holder, waiting := s.ds.waiting.filter (· != r),
          starvation := s.starvationAfter r, drive := [.start], moved := s.now, closing := false }
    }).grantTo r

/-- ARBITER_CHOICE (R122): with the controller FREE and a request waiting, one is chosen and the lines are
checked (R130). With both high the START is made; with a line low the controller waits in OPENING. -/
def execArbiterChoice (linesHigh : Bool) (s : State) : Result :=
  s.take fun s =>
    if s.ds.ctl = .free then
      match s.choice with
      | some r => if linesHigh then some (s.grant r) else some (s.openFor r)
      | none => none
    else none

/-- LINES_HIGH_AT_CHECK (R130): both lines are high within 1 ms of the check, and the START is made. -/
def execLinesHighAtCheck (s : State) : Result :=
  s.take fun s =>
    match s.ds.ctl with
    | .opening r t => if s.now ≤ t + lineCheckLimit then some (s.grant r) else none
    | _ => none

/-- STUCK_BUS_FOUND (R130): a line is still low 1 ms after the check. No START is made, no record is
written, and bus clear runs with the request still waiting. -/
def execStuckBusFound (s : State) : Result :=
  s.take fun s =>
    match s.ds.ctl with
    | .opening _ t =>
      some (((s.advanceTo (t + lineCheckLimit)).setCtl .clearing).drive [.release])
    | _ => none

/-! ## Fault aborts (R129) -/

/-- The abort is reported to a fetch (R69): the read that waits for it enters UNDERRUN. -/
def State.abortFetch (s : State) : State :=
  match s.read with
  | some r =>
    match r.cond with
    | .waiting _ f => if f.state = .inProgress then (s.say []).fetchFailed else s
    | _ => s
  | none => s

/-- The abort counts as a refused device address of the start-up access (R84, R169): another transaction
follows the bus clear. -/
def State.abortStart (s : State) (r : Request) : State :=
  match s.startAccess with
  | some a =>
    if a.asking = .inProgress ∧ s.startRequest = some r then
      s.setStartAccess { a with asking := .afterClear }
    else s
  | none => s

/-- The abort of a descriptor read of a command (R186): another transaction follows the bus clear. -/
def State.abortPortRead (s : State) : State :=
  match s.portAccess with
  | some a =>
    if a.asking = .inProgress then s.setPortAccess { a with asking := .afterClear } else s
  | none => s

/-- The abort of a descriptor write or of its poll fails WRITE_DESCRIPTOR (R190). -/
def State.abortBlock (s : State) : State :=
  match s.job with
  | some (.writeBlock _ _ _) => s.refuse reasonAccessFailed
  | _ => s

/-- The abort is reported to the holder (R129 step 3). -/
def State.reportAbort (s : State) : Request → State
  | .relay => s.failRelay
  | .fetch => s.abortFetch
  | .poll m => s.failAttempt m .downFault
  | .fillRead m => s.failAttempt m .downFault
  | .verifyRead m => s.failAttempt m .downFault
  | .issue m => s.failAttempt m .downFault
  | .probe m => s.abortStart (.probe m)
  | .descriptorRead .startUp => s.abortStart (.descriptorRead .startUp)
  | .descriptorRead .port => s.abortPortRead
  | .descriptorWrite => s.abortBlock
  | .descriptorPoll => s.abortBlock

/-- Steps 1, 2 and 4 of an abort (R129): the lines are released with no STOP, DOWN_FAULT is written, and
bus clear runs. -/
def State.faultBus (s : State) (m : Option MemberIx) (page : Option Nat) (detail : Nat) : State :=
  ((s.record .downFault m page detail).setCtl .clearing).drive [.release]

/-- An abort for STRETCH (detail 1) or COLLISION (detail 2), as one event (R129): the fault of the bus is
taken and the holder is told. -/
def State.abort (s : State) (h : Holder) (detail : Nat) : State :=
  (s.faultBus h.member h.page detail).reportAbort h.req

/-- The last move of a relay may still be held up: the slot in which the controller answers the last read
byte, through a START that the host has made meanwhile, or the STOP after a protection refusal (R125, R126;
DESIGN CHOICE, log entry 34). -/
def State.relayFinishing (s : State) (r : OpenRelay) : Bool :=
  (r.mark == .prot || (r.mark == .clear && (r.step == .readDone || r.step == .restarted false))) &&
    s.unfinishedMove

/-- The STOP that ended a relay may still be held up, or the slot that it follows, with the grant given up
and no other request chosen (R126, R127). In DOZE it is over, since DOZE is entered with the bus idle (R133;
DESIGN CHOICE, log entry 34). -/
def State.stopOpen (s : State) : Bool :=
  s.ds.ctl == .free && s.os.part != .doze && s.unfinishedMove

/-- DSCL may stand low with the controller not holding it (R127). In a relay that is while the controller
moves a byte, and not while it holds DSCL itself, waiting on the host (R124). -/
def State.stretchable (s : State) (h : Holder) : Bool :=
  match h.req, s.up.phase with
  | .relay, .relay r =>
    (r.mark == .clear && (r.step == .addressSent || r.step == .byteSent || r.step == .readDue)) ||
      s.relayFinishing r
  | .relay, _ => false
  | _, _ => true

/-- The controller may be making a START, a repeated START or a STOP, or sending a byte, in which it
compares DSDA (R128). In a relay that is a byte of the host's, with the START before it, and the STOP after
a protection refusal; the bits that a target sends are not compared. -/
def State.compares (s : State) (h : Holder) : Bool :=
  match h.req, s.up.phase with
  | .relay, .relay r =>
    (r.mark == .clear && (r.step == .addressSent || r.step == .byteSent)) ||
      (r.mark == .prot && s.relayFinishing r)
  | .relay, _ => false
  | _, _ => true

/-- STRETCH_TIMEOUT (R127): DSCL has stayed low for more than 25 ms from its release, `after` the beginning
of the controller's move (DESIGN CHOICE, log entry 34). At the STOP that ended a relay the fault names no
member and no page (R129), and no relay is left to be told. -/
def execStretchTimeout (s : State) (after : Micros := 0) : Result :=
  s.take fun s =>
    let t := s.advanceTo (s.ds.moved + after + stretchLimit)
    match s.ds.ctl with
    | .busy h => if t.stretchable h then some (t.abort h 1) else none
    | _ => if t.stopOpen then some (t.faultBus none none 1) else none

/-- COLLISION (R128). At the STOP that ended a relay too: a line held low there that the row does not tell of
is found by the line check of the next START (R126; DESIGN CHOICE, log entry 34). -/
def execCollision (s : State) : Result :=
  s.take fun s =>
    match s.ds.ctl with
    | .busy h => if s.compares h then some (s.abort h 2) else none
    | _ => if s.stopOpen then some (s.faultBus none none 2) else none

/-! ## HALT_DOWN (R133, R52) -/

/-- Every in-flight entry returns to PENDING with its fields kept, every member in CYCLE is ONLINE, and the
two PENDING entries that a loose member then has for a page are merged (R52, R16). -/
def State.returnToPending (s : State) : State :=
  let back : List Entry :=
    s.journal.map fun e => if e.isInFlight then { e with state := .pending } else e
  { s with
    journal := mergeSamePage (fun e => e.isPending && !(s.info e.member).strict) back
    members :=
      s.members.map fun mem =>
        if mem.state = .cycle then { mem with state := .online } else mem }

/-- Every waiting commit request is withdrawn (R52, R133). -/
def State.dropCommitRequests (s : State) : State :=
  { s with ds := { s.ds with waiting := s.ds.waiting.filter fun r => !r.isCommit } }

/-- The fetch that an open read waits for fails (R69, R76). -/
def State.haltFetch (s : State) : State :=
  match s.read with
  | some r =>
    match r.cond with
    | .waiting _ _ => ((s.withdraw .fetch).say []).fetchFailed
    | _ => s
  | none => s

/-- A relay that waits for its grant is refused (R108). -/
def State.haltRelay (s : State) : State :=
  match s.up.phase with
  | .relayWait _ _ _ => s.refuseRelay
  | _ => s

/-- The start-up access keeps or makes its request, and its window is over: the access starts again at
recovery (R84, R133, R169). -/
def State.haltStart (s : State) : State :=
  match s.startAccess with
  | some a =>
    match a.asking with
    | .dueAt t => s.setStartAccess { asking := .dueAt t, window := none }
    | _ => s.askStart none
  | none => s

/-- A descriptor access of a command that waits, or whose aborted transaction waited for the bus clear,
fails (R133, R186, R190). -/
def State.haltPort (s : State) : State :=
  match s.job with
  | some (.readDescriptor a) =>
    if a.asking = .waiting ∨ a.asking = .afterClear then
      (s.withdraw (.descriptorRead .port)).refuse reasonAccessFailed
    else s
  | some (.readBack _ a) =>
    if a.asking = .waiting ∨ a.asking = .afterClear then
      (s.withdraw (.descriptorRead .port)).refuse reasonAccessFailed
    else s
  | some (.writeBlock _ _ (.writing .waiting _)) =>
    (s.withdraw .descriptorWrite).refuse reasonAccessFailed
  | some (.writeBlock _ _ (.polling .waiting _)) =>
    (s.withdraw .descriptorPoll).refuse reasonAccessFailed
  | _ => s

/-- The entry to HALT_DOWN, as one event (R133): BUS_STUCK is written, the controller is HALTED with the
retry timer running, and the waiting requests are dealt with by their requesters' rules. The order of its
records is a DESIGN CHOICE (log entry 20). -/
def State.enterHalt (s : State) : State :=
  let s := s.record .busStuck none none 0
  let s : State :=
    { s with
      os := { s.os with part := .haltDown, ret := some s.os.part }
      ds := { s.ds with ctl := .halted (s.now + haltRetry), starvation := 0 } }
  (((((s.dropCommitRequests).returnToPending).haltFetch).haltRelay).haltStart).haltPort

/-! ## Bus clear (R131, R132, R135) -/

/-- Accesses whose aborted transaction waited for the bus clear are due again (R84, R169, R186). -/
def State.resumeAccesses (s : State) : State :=
  let s :=
    match s.startAccess with
    | some a => s.setStartAccess (a.afterBusClear s.now)
    | none => s
  match s.portAccess with
  | some a => s.setPortAccess (a.afterBusClear s.now)
  | none => s

/-- Start-up or RELOAD goes on after a halt (R135, R168): at step 4, with its access started again in a new
window, or by leaving STARTING if that is prepared. -/
def State.resumeStart (s : State) : State :=
  match s.os.start with
  | some .busClear => s.continueStart
  | some (.leaving _) => s.leaveIfReady
  | _ => s.askStart none

/-- The state entered at recovery (Table 6-4). -/
def State.recoverTo (s : State) : State :=
  match s.os.ret with
  | some .starting => ({ s with os := { s.os with part := .starting, ret := none } }).resumeStart
  | some .passthrough => { s with os := { s.os with part := .passthrough, ret := none } }
  | _ =>
    if s.drain.pfailAsserted then { s with os := { s.os with part := .flush, ret := none } }
    else ({ s with os := { s.os with part := .run, ret := none } }).closeEpisode

/-- Bus clear succeeds (R132, R135, R168). -/
def State.clearSucceeded (s : State) : State :=
  let s := s.freeBus
  match s.os.part with
  | .haltDown => ((s.record .busRecovered none none 0).recoverTo).resumeAccesses
  | .starting =>
    if s.os.start = some .busClear then s.continueStart else s.resumeAccesses
  | _ => s.resumeAccesses

/-- Bus clear fails (R132, R134): HALT_DOWN is entered, or the halted bus waits 10 ms more. -/
def State.clearFailed (s : State) : State :=
  if s.os.part = .haltDown then s.setCtl (.halted (s.now + haltRetry)) else s.enterHalt

/-- The lines have not risen within 1 ms (R131). The bus clear's first release, as its beginning, stands for
the one that is measured (DESIGN CHOICE, log entry 16). -/
def State.awaitRise (s : State) : State := s.advanceTo (s.ds.moved + clearRise)

/-- BUS_CLEAR_END (R131, R132): pulses are made until DSDA is sampled high, nine at most; then STOP, and
both lines are to be high within 1 ms. -/
def execBusClearEnd (pulsesNeeded : Nat) (highAfterStop : Bool) (s : State) : Result :=
  s.take fun s =>
    if s.ds.ctl = .clearing then
      if pulsesNeeded ≤ Config.clearPulses then
        let acts : List DownDrive := List.replicate pulsesNeeded .pulse ++ [.stop, .release]
        if highAfterStop then some (s.drive acts).clearSucceeded
        else some ((s.awaitRise).drive acts).clearFailed
      else some ((s.drive (List.replicate Config.clearPulses .pulse ++ [.release])).clearFailed)
    else none

/-- BUS_CLEAR_SCL_TIMEOUT (R131): DSCL does not rise within 1 ms of a release, at step 1 or after one of the
pulses, and bus clear fails. -/
def execBusClearSclTimeout (s : State) (pulses : Nat := 0) : Result :=
  s.take fun s =>
    if s.ds.ctl = .clearing then
      some
        (((s.awaitRise).drive
          (List.replicate (min pulses Config.clearPulses) .pulse ++ [.release])).clearFailed)
    else none

/-- HALT_RETRY_TIMER (R134): bus clear is run again. -/
def execHaltRetryTimer (s : State) : Result :=
  s.take fun s =>
    match s.ds.ctl with
    | .halted t => some (((s.advanceTo t).setCtl .clearing).drive [.release])
    | _ => none

end Sys2Proof.Machine
end

