-- ==== Sys2Proof/Machine/DrainFlush.lean ====
section
/-! DEFINITION. Drain requests, the power-fail flush and DOZE (Chapter 7, R174). -/

namespace Sys2Proof.Machine

/-! ## Drain requests (R138, R139) -/

/-- A drain request, by part state (R138): marking in RUN, FLUSH and HALT_DOWN, a wake in DOZE, and nothing
in STARTING and PASSTHROUGH. -/
def State.drainRequest (s : State) : State :=
  match s.os.part with
  | .run | .flush | .haltDown => s.markAll
  | .doze => s.wake
  | .starting | .passthrough => s

/-- The number of entries a drain request marks (R187). -/
def State.drainCount (s : State) : Nat :=
  match s.os.part with
  | .run | .flush | .haltDown => s.journal.length
  | _ => 0

/-- The DRAIN reference level is that of a sample (R137). -/
def State.setDrainLevel (s : State) (high : Bool) : State :=
  { s with drain := { s.drain with drainHigh := high } }

/-- DRAIN_RISING_EDGE (R138): a high sample of DRAIN is a rising edge, and a drain request, where it follows
a low sample: the level held, or the fall that the row tells of. A line that has stayed high makes none
(R137). The level is then that of the latest sample (DESIGN CHOICE, log entry 12). -/
def execDrainRisingEdge (s : State) (lowBefore : Bool := true) (lowAfter : Bool := false) : Result :=
  s.take fun s =>
    let t := s.setDrainLevel (!lowAfter)
    if s.drain.drainHigh ∧ lowBefore = false then some t else some t.drainRequest

/-! ## PFAIL (R141, R147 to R149) -/

/-- The PFAIL reference level follows the line (R137). -/
def State.setPfail (s : State) (asserted : Bool) : State :=
  { s with drain := { s.drain with pfailAsserted := asserted } }

/-- A flush episode opens if none is open (R148). -/
def State.ensureEpisode (s : State) : State :=
  match s.drain.episode with
  | some _ => s
  | none => s.openEpisode

/-- PFAIL assertion by part state (Table 7-2). -/
def State.pfailTaken (s : State) : State :=
  match s.os.part with
  | .run => s.enterFlush
  | .doze => if s.os.ret = some .passthrough then s else s.wake.enterFlush
  | .haltDown =>
    if s.os.ret = some .run ∨ s.os.ret = some .flush then s.markAll.ensureEpisode.abortWrite else s
  | _ => s

/-- PFAIL_ASSERTION (R141): the first asserted sample after a deasserted one (R137). -/
def execPfailAssertion (s : State) : Result :=
  s.take fun s =>
    if s.drain.pfailAsserted then none else some (s.setPfail true).pfailTaken

/-- PFAIL_DEASSERTION (R147): in FLUSH the part enters RUN and the episode closes; elsewhere only the
reference level changes (R148, R149). -/
def execPfailDeassertion (s : State) : Result :=
  s.take fun s =>
    if s.drain.pfailAsserted then
      let s := s.setPfail false
      if s.os.part = .flush then some (s.setPart .run).closeEpisode else some s
    else none

/-- The flush budget of the descriptor. -/
def State.budget (s : State) : Micros := ms ((s.os.globals.map (·.budgetMs)).getD 0)

/-- FLUSH_EXPIRED (R146): the budget of an open episode expires, and a record gives the number of PENDING
and in-flight entries left, if there is one. -/
def execFlushExpired (s : State) : Result :=
  s.take fun s =>
    match s.drain.episode with
    | some ep =>
      if ep.budget = .running then
        let s := s.advanceTo (ep.openedAt + s.budget)
        let s : State :=
          { s with drain := { s.drain with episode := some { ep with budget := .expired } } }
        if s.unfinished = 0 then some s else some (s.record .flushExpired none none s.unfinished)
      else none
    | none => none

/-! ## DOZE (R174) -/

/-- The quiesce time in force (R171). -/
def State.quiesceTime (s : State) : Micros := ms ((s.os.globals.map (·.quiesceMs)).getD 0)

/-- QUIESCE_EXPIRY (R174): the timer reaches the quiesce time, and the part enters DOZE. -/
def execQuiesceExpiry (s : State) : Result :=
  s.take fun s =>
    match s.os.quiesce with
    | some t =>
      let s := s.advanceTo (t + s.quiesceTime)
      some { s with os := { s.os with part := .doze, ret := some s.os.part, quiesce := none } }
    | none => none

end Sys2Proof.Machine
end

