-- ==== Sys2Proof/Machine/MaintPort.lean ====
section
/-! DEFINITION. The maintenance port: frame reception, decoding, the thirteen commands, the steps of
WRITE_DESCRIPTOR, the deferred changes and the responses (Chapter 10). -/

namespace Sys2Proof.Machine

/-! ## Composing responses (R181) -/

/-- An immediate answer to the frame that becomes the command in progress (R181). -/
def State.answer (s : State) (code seq : Byte) (status : Status) (payload : List Byte) : State :=
  ({ s with port := { s.port with cmd := some { code := code, seq := seq, job := .answered } } }).finish
    status payload

/-- An immediate REFUSED answer with its reason (R182). -/
def State.decline (s : State) (code seq reason : Byte) : State :=
  s.answer code seq .refused [reason]

/-- A command that takes time starts (R180). -/
def State.startJob (s : State) (code seq : Byte) (j : Job) : State :=
  { s with port := { s.port with cmd := some { code := code, seq := seq, job := j } } }

/-- A frame decoded while a command is in progress: BUSY into the busy place if that is empty, and no
response otherwise (R181). -/
def State.answerBusy (s : State) (code seq : Byte) : State :=
  if s.port.busyPlaceFull then s
  else
    { s with
      port :=
        { s.port with
          tx := s.port.tx ++
            [{ place := .busy
               response := { code := code, seq := seq, status := .busy, payload := [] } }] } }

/-! ## Reading commands (R183 to R186) -/

/-- The number of entries in an in-flight state. -/
def State.countStage (s : State) (st : Stage) : Nat := s.journal.countP (Entry.atStage st)

/-- The state of a member index in STATUS: 0xFF where the index has no record (Table 11-7). -/
def State.memberByte (s : State) (i : Nat) : Byte :=
  match s.members[i]? with
  | some m => m.state.code
  | none => 0xFF

/-- The STATUS payload (R183, Table 11-7). -/
def State.statusPayload (s : State) : List Byte :=
  [s.os.part.code, BitVec.ofNat 8 s.journal.length,
   BitVec.ofNat 8 (s.journal.countP Entry.isPending), BitVec.ofNat 8 (s.countStage .filling),
   BitVec.ofNat 8 (s.countStage .issuing), BitVec.ofNat 8 (s.countStage .cycling),
   BitVec.ofNat 8 (s.countStage .verifying), BitVec.ofNat 8 (s.journal.countP Entry.isHeld)] ++
    (List.range 8).map s.memberByte ++
    [flagByte s.drainedHigh, BitVec.ofNat 8 s.unread, s.os.mode.code] ++
    littleEndian 4 s.stamp.toNat

/-- STATUS at its decoding (R183). -/
def State.runStatus (s : State) (code seq : Byte) (_payload : List Byte) : State :=
  s.answer code seq .ok s.statusPayload

/-- READ_ENTRY at its decoding (R184, R2). -/
def State.runReadEntry (s : State) (code seq : Byte) (payload : List Byte) : State :=
  match s.journal[imageNat payload 0]? with
  | some e => s.answer code seq .ok (entryPayload (s.info e.member).pageSize e)
  | none => s.answer code seq .badArgument []

/-- The positions of the oldest unread records, up to `n`, marked read (R157). -/
def markOldest : Nat → List FaultRecord → List FaultRecord
  | _, [] => []
  | 0, l => l
  | n + 1, r :: rest =>
    if r.read then r :: markOldest (n + 1) rest else { r with read := true } :: markOldest n rest

/-- The records READ_FAULTS returns: the oldest unread ones, up to four (R157). -/
def State.unreadRecords (s : State) : List FaultRecord := (s.log.filter fun r => !r.read).take 4

/-- READ_FAULTS at its decoding (R157, R185). -/
def State.runReadFaults (s : State) (code seq : Byte) (_payload : List Byte) : State :=
  ({ s with log := markOldest 4 s.log }).answer code seq .ok
    (s.unreadRecords.flatMap FaultRecord.bytes)

/-- READ_DESCRIPTOR at its decoding (R186). -/
def State.runReadDescriptor (s : State) (code seq : Byte) (_payload : List Byte) : State :=
  match s.os.part with
  | .haltDown => s.decline code seq reasonAccessFailed
  | .starting => s.decline code seq reasonWrongState
  | _ =>
    (s.startJob code seq (.readDescriptor { asking := .waiting, window := none })).raise
      (.descriptorRead .port)

/-! ## Journal commands (R185, R187, R188) -/

/-- CLEAR_FAULTS at its decoding (R158, R185). -/
def State.runClearFaults (s : State) (code seq : Byte) (_payload : List Byte) : State :=
  ({ s with log := [] }).answer code seq .ok []

/-- DRAIN at its decoding (R187). -/
def State.runDrain (s : State) (code seq : Byte) (_payload : List Byte) : State :=
  s.drainRequest.answer code seq .ok [BitVec.ofNat 8 s.drainCount]

/-- The member index of a one-byte payload, where it is 0 to 7 (R188). -/
def memberArg (payload : List Byte) : Option MemberIx :=
  let n := imageNat payload 0
  if h : n < 8 then some ⟨n, h⟩ else none

/-- An entry of the member returns to PENDING with no attempt counted (R24). -/
def Entry.revived (m : MemberIx) (e : Entry) : Entry :=
  if e.member = m then { e with state := .pending, attempts := 0 } else e

/-- MEMBER_RETRY of a HELD member, as one event (R24). -/
def State.retryMember (s : State) (m : MemberIx) : State :=
  { s.setMember m .online with
    journal :=
      (mergeSamePage (fun e => e.member == m && !(s.info m).strict) s.journal).map (Entry.revived m) }

/-- MEMBER_RETRY at its decoding (R188). -/
def State.runMemberRetry (s : State) (code seq : Byte) (payload : List Byte) : State :=
  match memberArg payload with
  | none => s.answer code seq .badArgument []
  | some m =>
    if s.memberState m = .held then (s.retryMember m).answer code seq .ok []
    else s.decline code seq reasonNotHeld

/-- MEMBER_DISCARD of a HELD member, as one event (R25). -/
def State.discardMember (s : State) (m : MemberIx) : State :=
  { s.setMember m .online with journal := s.journal.filter fun e => e.member != m }

/-- MEMBER_DISCARD at its decoding (R188): the response gives the number of entries freed. -/
def State.runMemberDiscard (s : State) (code seq : Byte) (payload : List Byte) : State :=
  match memberArg payload with
  | none => s.answer code seq .badArgument []
  | some m =>
    if s.memberState m = .held then
      (s.discardMember m).answer code seq .ok
        [BitVec.ofNat 8 (s.journal.countP fun e => e.member == m)]
    else s.decline code seq reasonNotHeld

/-! ## WRITE_DESCRIPTOR (R189) -/

/-- The write of block `k` is requested (R189). -/
def State.askBlock (s : State) (image : List Byte) (k : Nat) : State :=
  (s.setJob (.writeBlock image k (.writing .waiting none))).raise .descriptorWrite

/-- WRITE_DESCRIPTOR at its decoding (R189): the image is validated, then the journal and the part state
are tested, and block 0 is requested. -/
def State.runWriteDescriptor (s : State) (code seq : Byte) (payload : List Byte) : State :=
  match validate s.os.ads payload with
  | some reason => s.decline code seq (BitVec.ofNat 8 reason)
  | none =>
    if !s.journal.isEmpty then s.decline code seq reasonJournalNotEmpty
    else
      match s.os.part with
      | .run | .passthrough =>
        (s.startJob code seq (.writeBlock payload 0 (.writing .waiting none))).raise .descriptorWrite
      | _ => s.decline code seq reasonWrongState

/-! ## Changes of the part state (R191, R192, R118) -/

/-- The reload of R172, as one event: STARTING with the records, states, pointers and global values
discarded and the descriptor read requested. -/
def State.startReload (s : State) : State :=
  ({ s.setJob .reloading with
      members := []
      os := { s.os with part := .starting, globals := none } }).requestDescriptor

/-- The change of a RELOAD or LEAVE_PASSTHROUGH (R191 stage 2): the part state, then the journal, is
tested. -/
def State.changeReload (s : State) : State :=
  match s.os.part with
  | .run | .passthrough =>
    if s.journal.isEmpty then s.startReload else s.refuse reasonJournalNotEmpty
  | _ => s.refuse reasonWrongState

/-- The change of ENTER_PASSTHROUGH (R173, R192). -/
def State.changePass (s : State) : State :=
  if s.os.part = .run then
    if s.journal.isEmpty then
      let t : State :=
        { s with
          members := s.members.map fun (m : Member) => { m with state := .unset }
          os := { s.os with part := .passthrough, cause := some .request } }
      t.finish .ok []
    else s.refuse reasonJournalNotEmpty
  else s.refuse reasonWrongState

/-- RELOAD or LEAVE_PASSTHROUGH at its decoding (R191). The change waits while an upstream transaction is
open (R118). -/
def State.runReload (s : State) (code seq : Byte) (_payload : List Byte) : State :=
  match s.os.part with
  | .run | .passthrough =>
    let s := s.startJob code seq .reloadWaiting
    if s.upstreamOpen then s else s.changeReload
  | _ => s.decline code seq reasonWrongState

/-- ENTER_PASSTHROUGH at its decoding (R192). -/
def State.runEnterPass (s : State) (code seq : Byte) (_payload : List Byte) : State :=
  if s.os.part = .run then
    let s := s.startJob code seq .passWaiting
    if s.upstreamOpen then s else s.changePass
  else s.decline code seq reasonWrongState

/-- SOFT_RESET at its decoding (R193): OK is composed, and the reset is taken when it has been sent. -/
def State.runSoftReset (s : State) (code seq : Byte) (payload : List Byte) : State :=
  let flags := imageNat payload 0
  if 1 < flags then s.answer code seq .badArgument []
  else if !s.journal.isEmpty && flags == 0 then s.decline code seq reasonJournalNotEmpty
  else (s.answer code seq .ok []).setJob .resetArmed

/-! ## Decoding (R180) -/

/-- The execution of a command that passed checks 1 to 4 of R180. -/
def State.runCommand (s : State) (c : Cmd) (seq : Byte) (payload : List Byte) : State :=
  match c with
  | .status => s.runStatus c.code seq payload
  | .readEntry => s.runReadEntry c.code seq payload
  | .readFaults => s.runReadFaults c.code seq payload
  | .readDescriptor => s.runReadDescriptor c.code seq payload
  | .clearFaults => s.runClearFaults c.code seq payload
  | .drain => s.runDrain c.code seq payload
  | .memberRetry => s.runMemberRetry c.code seq payload
  | .memberDiscard => s.runMemberDiscard c.code seq payload
  | .writeDescriptor => s.runWriteDescriptor c.code seq payload
  | .reload => s.runReload c.code seq payload
  | .leavePassthrough => s.runReload c.code seq payload
  | .enterPassthrough => s.runEnterPass c.code seq payload
  | .softReset => s.runSoftReset c.code seq payload

/-- A frame whose CRC matches is decoded (R180): the checks in their order. -/
def State.decodeFrame (s : State) (code seq : Byte) (payload : List Byte) : State :=
  if s.port.cmd.isSome then s.answerBusy code seq
  else
    match Cmd.ofCode code with
    | none => s.answer code seq .unknownCommand []
    | some c =>
      if s.os.mode = .monitor ∧ c.inMonitor = false then s.answer code seq .notPermitted []
      else if payload.length ≠ c.requestLength then s.answer code seq .badLength []
      else s.runCommand c seq payload

/-! ## Reception (R178, R179) -/

/-- The receiver's condition changes. -/
def State.setRx (s : State) (rx : Receiver) : State := { s with port := { s.port with rx := rx } }

/-- A byte of a frame under assembly (R179): the bytes before it are command, sequence, length and payload
so far. A length above 72 discards the frame; the byte after the payload is the CRC byte. -/
def State.frameByte (s : State) (bytes : List Byte) (b : Byte) : State :=
  let n := bytes.length
  if n < 2 then s.setRx (.frame (bytes ++ [b]) s.now)
  else if n = 2 then
    if Config.requestPayload < b.toNat then s.setRx .hunt else s.setRx (.frame (bytes ++ [b]) s.now)
  else if n < 3 + imageNat bytes 2 then s.setRx (.frame (bytes ++ [b]) s.now)
  else if crc8 bytes = b then
    (s.setRx .hunt).decodeFrame (bytes.getD 0 0) (bytes.getD 1 0) (bytes.drop 3)
  else s.setRx .hunt

/-- A byte taken by the receiver (R178, R179). -/
def State.receive (s : State) (b : Byte) (stopHigh : Bool) : State :=
  match s.port.rx with
  | .stopped => s
  | .hunt => if stopHigh && b == 0xA5 then s.setRx (.frame [] s.now) else s
  | .frame bytes _ => if stopHigh then s.frameByte bytes b else s.setRx .hunt

/-- MRX_BYTE (R179). In DOZE the byte has woken the part (R178). -/
def execMrxByte (b : Byte) (stopHigh : Bool) (s : State) : Result :=
  s.take fun s =>
    match s.port.rx with
    | .stopped => none
    | _ => some (s.wake.receive b stopHigh)

/-- MRX_START_BIT (R178): in DOZE, with the port open, the start bit of a byte wakes the part. -/
def execMrxStartBit (s : State) : Result :=
  s.take fun s =>
    if s.os.part = .doze ∧ s.port.rx ≠ .stopped then some s.wake else none

/-- FRAME_GAP_TIMEOUT (R179): a gap of 20 ms discards the frame. -/
def execFrameGapTimeout (s : State) : Result :=
  s.take fun s =>
    match s.port.rx with
    | .frame _ t => some ((s.advanceTo (t + frameGap)).setRx .hunt)
    | _ => none

/-! ## The command rows: a whole frame with a matching CRC (R180) -/

/-- A request frame arrives whole: its first byte wakes the part, a payload above 72 bytes discards it,
and it is decoded otherwise, with the receiver in HUNT after it (R179, R180). With the receiver STOPPED
no frame is received (R176). -/
def State.takeFrame (s : State) (code seq : Byte) (payload : List Byte) : Result :=
  s.take fun s =>
    match s.port.rx with
    | .stopped => none
    | _ =>
      let s := s.wake.setRx .hunt
      if payload.length ≤ Config.requestPayload then some (s.decodeFrame code seq payload) else some s

/-- UNKNOWN_COMMAND (R180). -/
def execUnknownCommand (code seq : Byte) (payload : List Byte) (s : State) : Result :=
  s.takeFrame code seq payload

/-- STATUS (R183). -/
def execStatus (seq : Byte) (payload : List Byte) (s : State) : Result :=
  s.takeFrame (Cmd.code .status) seq payload

/-- READ_ENTRY (R184). -/
def execReadEntry (seq : Byte) (payload : List Byte) (s : State) : Result :=
  s.takeFrame (Cmd.code .readEntry) seq payload

/-- READ_FAULTS (R185). -/
def execReadFaults (seq : Byte) (payload : List Byte) (s : State) : Result :=
  s.takeFrame (Cmd.code .readFaults) seq payload

/-- READ_DESCRIPTOR (R186). -/
def execReadDescriptor (seq : Byte) (payload : List Byte) (s : State) : Result :=
  s.takeFrame (Cmd.code .readDescriptor) seq payload

/-- CLEAR_FAULTS (R185). -/
def execClearFaults (seq : Byte) (payload : List Byte) (s : State) : Result :=
  s.takeFrame (Cmd.code .clearFaults) seq payload

/-- DRAIN (R187). -/
def execDrain (seq : Byte) (payload : List Byte) (s : State) : Result :=
  s.takeFrame (Cmd.code .drain) seq payload

/-- MEMBER_RETRY (R188). -/
def execMemberRetry (seq : Byte) (payload : List Byte) (s : State) : Result :=
  s.takeFrame (Cmd.code .memberRetry) seq payload

/-- MEMBER_DISCARD (R188). -/
def execMemberDiscard (seq : Byte) (payload : List Byte) (s : State) : Result :=
  s.takeFrame (Cmd.code .memberDiscard) seq payload

/-- WRITE_DESCRIPTOR (R189). -/
def execWriteDescriptor (seq : Byte) (payload : List Byte) (s : State) : Result :=
  s.takeFrame (Cmd.code .writeDescriptor) seq payload

/-- RELOAD (R191). -/
def execReload (seq : Byte) (payload : List Byte) (s : State) : Result :=
  s.takeFrame (Cmd.code .reload) seq payload

/-- LEAVE_PASSTHROUGH (R191). -/
def execLeavePassthrough (seq : Byte) (payload : List Byte) (s : State) : Result :=
  s.takeFrame (Cmd.code .leavePassthrough) seq payload

/-- ENTER_PASSTHROUGH (R192). -/
def execEnterPassthrough (seq : Byte) (payload : List Byte) (s : State) : Result :=
  s.takeFrame (Cmd.code .enterPassthrough) seq payload

/-- SOFT_RESET (R193). -/
def execSoftReset (seq : Byte) (payload : List Byte) (s : State) : Result :=
  s.takeFrame (Cmd.code .softReset) seq payload

/-- DEFERRED_CHANGE (R118): a waiting RELOAD or ENTER_PASSTHROUGH is made once no upstream transaction is
open. -/
def execDeferredChange (s : State) : Result :=
  s.take fun s =>
    if s.upstreamOpen then none
    else
      match s.job with
      | some .reloadWaiting => some s.changeReload
      | some .passWaiting => some s.changePass
      | _ => none

/-! ## The steps of WRITE_DESCRIPTOR (R189) -/

/-- The end of the write of a block (R189). -/
def State.blockWritten (s : State) (report : WriteReport) : State :=
  match s.job with
  | some (.writeBlock image k (.writing .inProgress first)) =>
    match report with
    | .completed => s.setJob (.writeBlock image k (.polling (.dueAt (s.now + pollInterval)) s.now))
    | .nack .deviceW =>
      if s.now + pollInterval ≤ first.getD s.now + blockLimit then
        s.setJob (.writeBlock image k (.writing (.dueAt (s.now + pollInterval)) first))
      else s.refuse reasonAccessFailed
    | .nack _ => s.refuse reasonAccessFailed
  | _ => s

/-- DESCRIPTOR_WRITE_END (R189). -/
def execDescriptorWriteEnd (report : WriteReport) (s : State) : Result :=
  s.take fun s =>
    if s.inProgress .descriptorWrite then some (s.endTransaction.blockWritten report) else none

/-- DESCRIPTOR_WRITE_RETRY_DUE (R189): the write is requested again. In HALT_DOWN it fails at once
(R133). -/
def execDescriptorWriteRetryDue (s : State) : Result :=
  s.take fun s =>
    match s.job with
    | some (.writeBlock image k (.writing (.dueAt t) first)) =>
      let s := s.advanceTo t
      if s.os.part = .haltDown then some (s.refuse reasonAccessFailed)
      else
        some ((s.setJob (.writeBlock image k (.writing .waiting first))).raise .descriptorWrite)
    | _ => none

/-- DESCRIPTOR_WRITE_POLL_DUE (R189): the poll is requested. In HALT_DOWN it fails at once (R133). -/
def execDescriptorWritePollDue (s : State) : Result :=
  s.take fun s =>
    match s.job with
    | some (.writeBlock image k (.polling (.dueAt t) stopAt)) =>
      let s := s.advanceTo t
      if s.os.part = .haltDown then some (s.refuse reasonAccessFailed)
      else
        some ((s.setJob (.writeBlock image k (.polling .waiting stopAt))).raise .descriptorPoll)
    | _ => none

/-- A block has been stored: the next is requested, or after block 7 the read-back (R189). -/
def State.blockStored (s : State) (image : List Byte) (k : Nat) : State :=
  if k < 7 then s.askBlock image (k + 1)
  else
    (s.setJob (.readBack image { asking := .waiting, window := none })).raise (.descriptorRead .port)

/-- The end of a poll of a block (R189). -/
def State.blockPolled (s : State) (ack : Bool) : State :=
  match s.job with
  | some (.writeBlock image k (.polling .inProgress stopAt)) =>
    if ack then s.blockStored image k
    else if s.now + pollInterval ≤ stopAt + blockLimit then
      s.setJob (.writeBlock image k (.polling (.dueAt (s.now + pollInterval)) stopAt))
    else s.refuse reasonAccessFailed
  | _ => s

/-- DESCRIPTOR_WRITE_POLL_END (R189). -/
def execDescriptorWritePollEnd (ack : Bool) (s : State) : Result :=
  s.take fun s =>
    if s.inProgress .descriptorPoll then some (s.endTransaction.blockPolled ack) else none

/-! ## Responses sent (R181, R193) -/

/-- The command's own response has been sent: the command in progress ends, and an accepted SOFT_RESET
takes its reset, which is released at once with the mode kept (R164, R193). -/
def State.commandSent (s : State) (p : Pins) : State :=
  if s.job = some .resetArmed then (s.resetPart s.os.mode 128).release true p
  else { s with port := { s.port with cmd := none } }

/-- RESPONSE_SENT (R181): the response leaves its place. -/
def execResponseSent (p : Pins) (s : State) : Result :=
  s.take fun s =>
    match s.port.tx with
    | [] => none
    | o :: rest =>
      let s : State := { s with port := { s.port with tx := rest } }
      match o.place with
      | .busy => some s
      | .command => some (s.commandSent p)

end Sys2Proof.Machine
end

