-- ==== Sys2Proof/Machine/Dispatch.lean ====
section
/-! DEFINITION. One arm per command: the direct call of its meaning. -/

namespace Sys2Proof.Machine

def exec (i : Instr) (s : State) : Host.Outcome State Fault Refusal :=
  match i with
  | .powerOnReset => Sys2Proof.Machine.execPowerOnReset s
  | .resetLineAsserted => Sys2Proof.Machine.execResetLineAsserted s
  | .resetRelease pins => Sys2Proof.Machine.execResetRelease pins s
  | .mselPulse => Sys2Proof.Machine.execMselPulse s
  | .mselWindowEnd => Sys2Proof.Machine.execMselWindowEnd s
  | .descriptorReadEnd report => Sys2Proof.Machine.execDescriptorReadEnd report s
  | .descriptorReadRetryDue => Sys2Proof.Machine.execDescriptorReadRetryDue s
  | .answerWindowEnd => Sys2Proof.Machine.execAnswerWindowEnd s
  | .probeEnd ack => Sys2Proof.Machine.execProbeEnd ack s
  | .probeRetryDue => Sys2Proof.Machine.execProbeRetryDue s
  | .probeWindowEnd => Sys2Proof.Machine.execProbeWindowEnd s
  | .upstreamStart => Sys2Proof.Machine.execUpstreamStart s
  | .addressByte dev dir => Sys2Proof.Machine.execAddressByte dev dir s
  | .wordAddressByte byte => Sys2Proof.Machine.execWordAddressByte byte s
  | .writeDataByte byte => Sys2Proof.Machine.execWriteDataByte byte s
  | .writeStop => Sys2Proof.Machine.execWriteStop s
  | .writeRepeatedStart => Sys2Proof.Machine.execWriteRepeatedStart s
  | .readByteAnswer ack => Sys2Proof.Machine.execReadByteAnswer ack s
  | .readEnd how => Sys2Proof.Machine.execReadEnd how s
  | .fetchEnd report => Sys2Proof.Machine.execFetchEnd report s
  | .fetchDueAgain => Sys2Proof.Machine.execFetchDueAgain s
  | .readHoldExpiry => Sys2Proof.Machine.execReadHoldExpiry s
  | .relayHoldExpiry => Sys2Proof.Machine.execRelayHoldExpiry s
  | .relayHostByte byte => Sys2Proof.Machine.execRelayHostByte byte s
  | .relayTargetAnswer ack => Sys2Proof.Machine.execRelayTargetAnswer ack s
  | .relayReadByte byte => Sys2Proof.Machine.execRelayReadByte byte s
  | .relayHostReadAnswer ack => Sys2Proof.Machine.execRelayHostReadAnswer ack s
  | .relayStop => Sys2Proof.Machine.execRelayStop s
  | .relayRepeatedStart dev dir => Sys2Proof.Machine.execRelayRepeatedStart dev dir s
  | .upTimeout => Sys2Proof.Machine.execUpTimeout s
  | .selection => Sys2Proof.Machine.execSelection s
  | .dwellExpiry position => Sys2Proof.Machine.execDwellExpiry position s
  | .fillReadEnd report => Sys2Proof.Machine.execFillReadEnd report s
  | .issueEnd report => Sys2Proof.Machine.execIssueEnd report s
  | .busyRepeatDue member => Sys2Proof.Machine.execBusyRepeatDue member s
  | .pollDue member => Sys2Proof.Machine.execPollDue member s
  | .pollEnd ack => Sys2Proof.Machine.execPollEnd ack s
  | .writeCycleTimeout member => Sys2Proof.Machine.execWriteCycleTimeout member s
  | .verifyReadEnd report => Sys2Proof.Machine.execVerifyReadEnd report s
  | .arbiterChoice linesHigh => Sys2Proof.Machine.execArbiterChoice linesHigh s
  | .linesHighAtCheck => Sys2Proof.Machine.execLinesHighAtCheck s
  | .stuckBusFound => Sys2Proof.Machine.execStuckBusFound s
  | .stretchTimeout after => Sys2Proof.Machine.execStretchTimeout s after
  | .collision => Sys2Proof.Machine.execCollision s
  | .busClearEnd pulsesNeeded highAfterStop => Sys2Proof.Machine.execBusClearEnd pulsesNeeded highAfterStop s
  | .busClearSclTimeout n => Sys2Proof.Machine.execBusClearSclTimeout s n
  | .haltRetryTimer => Sys2Proof.Machine.execHaltRetryTimer s
  | .drainRisingEdge lb la => Sys2Proof.Machine.execDrainRisingEdge s lb la
  | .pfailAssertion => Sys2Proof.Machine.execPfailAssertion s
  | .pfailDeassertion => Sys2Proof.Machine.execPfailDeassertion s
  | .flushExpired => Sys2Proof.Machine.execFlushExpired s
  | .quiesceExpiry => Sys2Proof.Machine.execQuiesceExpiry s
  | .deferredChange => Sys2Proof.Machine.execDeferredChange s
  | .mrxByte byte stopHigh => Sys2Proof.Machine.execMrxByte byte stopHigh s
  | .frameGapTimeout => Sys2Proof.Machine.execFrameGapTimeout s
  | .unknownCommand code seq payload => Sys2Proof.Machine.execUnknownCommand code seq payload s
  | .status seq payload => Sys2Proof.Machine.execStatus seq payload s
  | .readEntry seq payload => Sys2Proof.Machine.execReadEntry seq payload s
  | .readFaults seq payload => Sys2Proof.Machine.execReadFaults seq payload s
  | .readDescriptor seq payload => Sys2Proof.Machine.execReadDescriptor seq payload s
  | .clearFaults seq payload => Sys2Proof.Machine.execClearFaults seq payload s
  | .drain seq payload => Sys2Proof.Machine.execDrain seq payload s
  | .memberRetry seq payload => Sys2Proof.Machine.execMemberRetry seq payload s
  | .memberDiscard seq payload => Sys2Proof.Machine.execMemberDiscard seq payload s
  | .writeDescriptor seq payload => Sys2Proof.Machine.execWriteDescriptor seq payload s
  | .descriptorWriteEnd report => Sys2Proof.Machine.execDescriptorWriteEnd report s
  | .descriptorWriteRetryDue => Sys2Proof.Machine.execDescriptorWriteRetryDue s
  | .descriptorWritePollDue => Sys2Proof.Machine.execDescriptorWritePollDue s
  | .descriptorWritePollEnd ack => Sys2Proof.Machine.execDescriptorWritePollEnd ack s
  | .reload seq payload => Sys2Proof.Machine.execReload seq payload s
  | .leavePassthrough seq payload => Sys2Proof.Machine.execLeavePassthrough seq payload s
  | .enterPassthrough seq payload => Sys2Proof.Machine.execEnterPassthrough seq payload s
  | .softReset seq payload => Sys2Proof.Machine.execSoftReset seq payload s
  | .responseSent pins => Sys2Proof.Machine.execResponseSent pins s
  | .upstreamStop => Sys2Proof.Machine.execUpstreamStop s
  | .mrxStartBit => Sys2Proof.Machine.execMrxStartBit s

end Sys2Proof.Machine
end

