-- ==== Sys2Proof/Safety.lean ====
section
/-! DEFINITION. What the statements about the part are said in: what two states have in common, and the
invariants that the rules promise of every state of a run. -/

namespace Sys2Proof.Machine

/-! ## What a step leaves unchanged -/

/-- The pieces of the state. `os` is the operating-state controller without its quiesce timer, which
follows the quiet conditions at every event (R174). -/
inductive Part where
  | pending
  | now
  | inReset
  | os
  | drain
  | members
  | journal
  | read
  | up
  | landing
  | ds
  | log
  | port
deriving DecidableEq, Repr

/-- Two states agree on one piece. -/
def State.sameAt (s t : State) : Part → Prop
  | .pending => t.pending = s.pending
  | .now => t.now = s.now
  | .inReset => t.inReset = s.inReset
  | .os => { t.os with quiesce := none } = { s.os with quiesce := none }
  | .drain => t.drain = s.drain
  | .members => t.members = s.members
  | .journal => t.journal = s.journal
  | .read => t.read = s.read
  | .up => t.up = s.up
  | .landing => t.landing = s.landing
  | .ds => t.ds = s.ds
  | .log => t.log = s.log
  | .port => t.port = s.port

/-- Two states agree on every piece but those listed: the frame of a command. -/
def State.sameBut (s t : State) (changed : List Part) : Prop := ∀ p : Part, p ∉ changed → s.sameAt t p

/-! ## Bounds (R1, R100, R123, R152) -/

/-- The list and the one reservation fit the 32 slots, the ring holds at most 16 records, and the
starvation counter is at most 4. -/
structure State.Bounded (s : State) : Prop where
  slots : s.journal.length + (if s.reserved then 1 else 0) ≤ 32
  ring : s.log.length ≤ 16
  guard : s.ds.starvation ≤ 4

/-! ## The fault ring (R157) -/

/-- The read records of the ring stand before its unread records (R157). -/
def State.ReadFirst (s : State) : Prop := s.log.Pairwise fun a b => b.read = true → a.read = true

/-! ## The quiesce timer (R174) -/

/-- The quiesce timer runs exactly while the quiet conditions hold (R174). A part held in reset is in
STARTING (R163). -/
structure State.QuiesceRight (s : State) : Prop where
  timer : s.os.quiesce.isSome = s.quiet
  reset : s.inReset = true → s.os.part = .starting

/-! ## Held members (R17, R22, R27) -/

/-- The journal may hold entries and a write may be open: in RUN, in FLUSH, and in a HALT_DOWN left from
one of them (R27, R99). -/
def Operating.journaling (o : Operating) : Bool :=
  match o.part with
  | .run | .flush => true
  | .haltDown => o.ret == some .run || o.ret == some .flush
  | _ => false

/-- The member of an open write. -/
def State.writing (s : State) : Option MemberIx :=
  match s.up.phase with
  | .write w => some w.member
  | _ => none

/-- An entry is HELD exactly when its member is HELD (R22), with what keeps it so: every entry belongs to a
member of the table (R17), the journal and an open write stand only in the part states that allow them
(R27, R99), the landing buffer belongs to the open write (R102), the start sequence runs only in STARTING
and in a halt left from it (Table 9-1), and the quiesce timer runs only while the part is quiet (R174). -/
structure State.HeldRight (s : State) : Prop where
  rows : ∀ e ∈ s.journal, e.member.val < s.members.length
  held : ∀ e ∈ s.journal, e.isHeld = (s.memberState e.member == .held)
  place : s.journal ≠ [] → s.os.journaling = true
  writeRow : ∀ m, s.writing = some m → m.val < s.members.length
  writePlace : s.writing.isSome = true → s.os.journaling = true
  landing : ∀ l, s.landing = some l → s.writing = some l.member
  starting : s.os.start.isSome = true →
    s.os.part = .starting ∨ (s.os.part = .haltDown ∧ s.os.ret = some .starting)
  quiesce : s.QuiesceRight

/-! ## Combining (R11, R16) -/

/-- A loose member has at most one PENDING entry for a page (R11). -/
def State.OnePending (s : State) : Prop :=
  s.journal.Pairwise fun a b =>
    ¬(a.member = b.member ∧ a.page = b.page ∧ (s.info a.member).strict = false ∧
      a.isPending = true ∧ b.isPending = true)

/-! ## Page images (R3, R4) -/

/-- Every entry of the member holds one flag for each byte of its page (R4). -/
def State.Sized (s : State) (m : MemberIx) : Prop :=
  ∀ e ∈ s.journal, e.member = m → e.image.length = (s.info m).pageSize

/-! ## One slot among the others (R29, R60, R21) -/

/-- The journal keeps every entry at its position, but for the in-flight entry of one member, which may
change. -/
def State.keepsOthers (s t : State) (m : MemberIx) : Prop :=
  t.journal.length = s.journal.length ∧
    ∀ (i : Nat) (e : Entry), s.journal[i]? = some e → (e.member = m → e.isInFlight = false) →
      t.journal[i]? = some e

/-- What the member's entry to CYCLE makes of a fetch's state: one that waits or is due again is held for
the cycle (R60). -/
def FetchState.atCycle : FetchState → FetchState
  | .waitingGrant | .dueAgain _ => .heldForCycle
  | f => f

/-- What the end of the member's CYCLE makes of a fetch's state: one held for the cycle waits for its grant
(R60). -/
def FetchState.afterCycle : FetchState → FetchState
  | .heldForCycle => .waitingGrant
  | f => f

/-- The open read with the state of the fetch it waits for changed, where it is of this member. -/
def OpenRead.onFetch (r : OpenRead) (m : MemberIx) (g : FetchState → FetchState) : OpenRead :=
  match r.cond with
  | .waiting t f =>
    if r.member = m then { r with cond := .waiting t { f with state := g f.state } } else r
  | _ => r

/-- One fetch buffer has taken an entry's bytes into another (R21, R70): at each address of the entry's page
whose flag is set stands the entry's byte, and elsewhere the byte stays. -/
def FetchBuffer.Takes (b b' : FetchBuffer) (r : MemberRec) (e : Entry) : Prop :=
  b'.start = b.start ∧ b'.bytes.length = b.bytes.length ∧
    ∀ (i : Nat) (old : Byte), b.bytes[i]? = some old →
      b'.bytes[i]? =
        some
          (if (b.start + i) / r.pageSize = e.page then
            (e.image.byteAt ((b.start + i) % r.pageSize)).getD old
          else old)

/-- What the retirement of a member's entry makes of the open read, after `g` has been at its fetch: an open
fetch buffer of the member takes the entry's bytes (R21), and nothing else changes. -/
def State.readTakes (s t : State) (m : MemberIx) (e : Entry) (g : FetchState → FetchState) : Prop :=
  match s.read with
  | none => t.read = none
  | some o =>
    match o.buffer with
    | none => t.read = some (o.onFetch m g)
    | some b =>
      (o.member ≠ m → t.read = some o) ∧
        (o.member = m →
          ∃ b', b.Takes b' (s.info m) e ∧
            t.read = some { o.onFetch m g with buffer := some b' })

/-! ## The probe goes on (R84, R171) -/

/-- What a moving on of the probe from an index makes: the first journaled member from there in index order
is probed, its request waiting with no window open; and where there is none RUN is prepared, which a part
in STARTING enters at once after the MSEL window, or FLUSH where PFAIL is asserted. -/
def State.probesFrom (s t : State) (n : Nat) : Prop :=
  (∀ k : MemberIx, n ≤ k.val → (t.info k).journaled = true →
    (∀ j : MemberIx, n ≤ j.val → j < k → (t.info j).journaled = false) →
      t.os.part = s.os.part ∧ .probe k ∈ t.ds.waiting ∧
        t.os.start = some (.probing k { asking := .waiting, window := none })) ∧
    ((∀ j : MemberIx, n ≤ j.val → (t.info j).journaled = false) →
      (s.os.msel ≠ none → t.os.part = s.os.part ∧ t.os.start = some (.leaving .run)) ∧
        (s.os.part = .starting → s.os.msel = none →
          t.os.start = none ∧ t.readyHigh = true ∧
            t.os.part = (if s.drain.pfailAsserted then .flush else .run)))

/-! ## The member and page of a fault (R129) -/

/-- A holder names what a fault of its request names: the member and page of a slot's entry, the member of a
read with the page of its fetch address, the member of a probe, and nothing for a relay or a descriptor
access. -/
def State.faultNamed (s : State) (r : Request) (h : Holder) : Prop :=
  (∀ m, r = .poll m ∨ r = .fillRead m ∨ r = .verifyRead m ∨ r = .issue m →
    h.member = some m ∧ h.page = (s.slotEntry m).map (·.page)) ∧
    (∀ o t0 f, r = .fetch → s.read = some o → o.cond = .waiting t0 f →
      h.member = some o.member ∧ h.page = some (f.addr / (s.info o.member).pageSize)) ∧
    (∀ m, r = .probe m → h.member = some m ∧ h.page = none) ∧
    (r = .relay ∨ r.isService = true → (∀ m, r ≠ .probe m) → h.member = none ∧ h.page = none)

/-! ## What a grant changes (R122, R109, R84, R169, R189) -/

/-- The pieces of the state that the grant of a request may change. -/
def Request.touches : Request → List Part
  | .relay => [.ds, .up]
  | .fetch => [.ds, .read]
  | .poll _ | .fillRead _ | .verifyRead _ | .issue _ => [.ds]
  | .probe _ | .descriptorRead .startUp => [.ds, .os]
  | .descriptorRead .port | .descriptorWrite | .descriptorPoll => [.ds, .port]

/-- The order in which the arbiter serves the in-flight states: polls, then fill and verify reads, then
issues (R122). -/
def Stage.rank : Stage → Nat
  | .cycling => 0
  | .filling | .verifying => 1
  | .issuing => 2

/-! ## The commands of the maintenance port (Table 10-2) -/

/-- The row of a command of the port, with its sequence byte and payload. -/
def Cmd.row : Cmd → Byte → List Byte → Instr
  | .status => .status
  | .readEntry => .readEntry
  | .readFaults => .readFaults
  | .readDescriptor => .readDescriptor
  | .clearFaults => .clearFaults
  | .drain => .drain
  | .memberRetry => .memberRetry
  | .memberDiscard => .memberDiscard
  | .writeDescriptor => .writeDescriptor
  | .reload => .reload
  | .leavePassthrough => .leavePassthrough
  | .enterPassthrough => .enterPassthrough
  | .softReset => .softReset

/-- A frame of this command passes checks 1 to 3 of R180: the port is open and no command is in progress,
and the mode permits it. A part in DOZE wakes first (R178). -/
structure State.ReadyFor (s : State) (c : Cmd) : Prop where
  released : s.inReset = false
  open_ : s.port.rx ≠ .stopped
  free : s.port.cmd = none
  mode : s.os.mode = .monitor → c.inMonitor = true
  awake : s.os.part ≠ .doze

/-- The port after a frame that is answered at once: the receiver in HUNT, and the response composed into
the command place (R179, R181). -/
def Port.answered (p : Port) (code seq : Byte) (status : Status) (payload : List Byte) : Port :=
  { rx := .hunt
    cmd := some { code := code, seq := seq, job := .answered }
    tx := p.tx ++
      [{ place := .command
         response := { code := code, seq := seq, status := status, payload := payload } }] }

/-- The port after a frame that starts a command which takes time (R180). -/
def Port.started (p : Port) (code seq : Byte) (j : Job) : Port :=
  { p with rx := .hunt, cmd := some { code := code, seq := seq, job := j } }

/-- The port after the end of a command in progress: its response is composed (R181). -/
def Port.ended (p : Port) (c : Command) (status : Status) (payload : List Byte) : Port :=
  { p with
    cmd := some { c with job := .answered }
    tx := p.tx ++
      [{ place := .command
         response := { code := c.code, seq := c.seq, status := status, payload := payload } }] }

end Sys2Proof.Machine
end

