-- ==== Sys2Proof/Certificates/Slice0/Obligations.lean ====
section
/-! DEFINITION. The statements for the provers. Each says what a command does and what it leaves, or what
every step keeps. The quiesce timer is left out of every frame: it follows R174 (HeldAgreementKept). -/

open Sys2Proof Sys2Proof.Machine

/-! ## The step and the queue -/

/-- A step takes the command at the front of the queue. On an empty queue it is one microsecond of the
time base, which stands still while a reset is held (the model's choice, log entry 1). -/
def Obligations.StepRunsFrontCommand : Prop :=
  ∀ s : State,
    (∀ (c : Instr) (rest : List Instr),
      step { s with pending := c :: rest } = exec c { s with pending := rest }) ∧
    (s.pending = [] →
      (s.inReset = false → step s = .next { s with now := s.now + 1 }) ∧
        (s.inReset = true → step s = .next s))

/-- No command changes the queue. -/
def Obligations.CommandsKeepTheQueue : Prop :=
  ∀ (c : Instr) (s t : State), exec c s = .next t → t.pending = s.pending

/-- While a reset is held, only a reset and its release change anything. The model's reading of R164
(log entry 4). -/
def Obligations.HeldInResetTakesNoEvent : Prop :=
  ∀ (c : Instr) (s : State), s.inReset = true → c ≠ .powerOnReset → c ≠ .resetLineAsserted →
    (∀ p, c ≠ .resetRelease p) → exec c s = .next s

/-- A read that is said to have completed with another number of bytes than its transaction asked for
stops with the fault byteCount. The model's choice (log entry 7). -/
def Obligations.WrongByteCountStops : Prop :=
  ∀ (s : State) (h : Holder) (dev : DevAddr) (word bytes : List Byte) (n : Nat) (m : MemberIx),
    s.inReset = false → s.ds.ctl = .busy h → h.txn = .read dev word n → bytes.length ≠ n →
      (h.req = .fetch → exec (.fetchEnd (.completed bytes)) s = .fault .byteCount) ∧
      (h.req = .fillRead m → exec (.fillReadEnd (.completed bytes)) s = .fault .byteCount) ∧
      (h.req = .verifyRead m → exec (.verifyReadEnd (.completed bytes)) s = .fault .byteCount) ∧
      (∀ who, h.req = .descriptorRead who →
        exec (.descriptorReadEnd (.completed bytes)) s = .fault .byteCount)

/-! ## Invariants -/

/-- Every step keeps the list and its reservation within 32 slots, the ring within 16 records and the
starvation counter within 4. -/
def Obligations.BoundsKept : Prop :=
  ∀ s t : State, s.Bounded → step s = .next t → t.Bounded

/-- Every step keeps an entry HELD exactly when its member is HELD, with what keeps it so
(State.HeldRight), and the quiesce timer running exactly while the quiet conditions hold
(State.QuiesceRight). -/
def Obligations.HeldAgreementKept : Prop :=
  ∀ s t : State, step s = .next t →
    (s.QuiesceRight → t.QuiesceRight) ∧ (s.HeldRight → t.HeldRight)

/-- Every step keeps at most one PENDING entry for a page of a loose member. -/
def Obligations.OnePendingPerPageKept : Prop :=
  ∀ s t : State, s.HeldRight → s.OnePending → step s = .next t → t.OnePending

/-- Every step keeps the read records of the ring before its unread records. -/
def Obligations.ReadRecordsFirstKept : Prop :=
  ∀ s t : State, s.ReadFirst → step s = .next t → t.ReadFirst

/-- The state after reset meets every invariant above. -/
def Obligations.ResetMeetsInvariants : Prop :=
  State.reset.Bounded ∧ State.reset.HeldRight ∧ State.reset.OnePending ∧ State.reset.ReadFirst ∧
    State.reset.QuiesceRight

/-! ## Resets and start-up -/

/-- A power-on reset leaves every list, buffer, slot and request empty, the upstream record IDLE, the
controller FREE with its counter 0, STARTING with mode OFF and no global value, the port STOPPED, the
free count 32, DRAINED high, ALERT released and READY low, and empties the fault log. A RESET line reset
leaves the same but for the log, which it keeps, and writes RESET_DISCARD, with stamp 0 and the number
of entries lost, where the journal held entries. The levels that State.reset holds for the lines until
their release are the model's (log entry 3). -/
def Obligations.HardResetsLeaveTheirState : Prop :=
  ∀ s : State,
    (∃ t, exec .powerOnReset s = .next t ∧ t = { State.reset with pending := s.pending } ∧
      t.journal = [] ∧ t.freeCount = 32 ∧ (∀ m, t.slot m = none) ∧ t.members = [] ∧
      t.read = none ∧ t.up.phase = .idle ∧ t.up.idle = none ∧ t.landing = none ∧
      t.reserved = false ∧ t.ds.ctl = .free ∧ t.ds.waiting = [] ∧ t.ds.starvation = 0 ∧
      t.log = [] ∧ t.drain.episode = none ∧ t.os.part = .starting ∧ t.os.ret = none ∧
      t.os.cause = none ∧ t.os.mode = .off ∧ t.os.globals = none ∧ t.os.quiesce = none ∧
      t.os.everLeft = false ∧ t.port = { rx := .stopped, cmd := none, tx := [] } ∧
      t.drainedHigh = true ∧ t.alertLow = false ∧ t.readyHigh = false ∧ t.mtxIdle = true) ∧
    exec .resetLineAsserted s =
      .next
        { State.reset with
          pending := s.pending
          log :=
            if s.journal = [] then s.log
            else
              pushRecord
                { stamp := 0, kind := .resetDiscard, member := none, page := none,
                  detail := BitVec.ofNat 8 s.journal.length, lost := false, read := false }
                s.log }

/-- The end of a response: a BUSY response leaves its place and nothing else changes; the response of a
command in progress leaves its place and the command ends. The end of an accepted SOFT_RESET's response
takes the reset and releases it at once: the ring is kept with a RESET_DISCARD of the entries plus 128,
the maintenance mode is kept, the straps and the DRAIN and PFAIL levels are sampled, no MSEL window
opens, bus clear runs and the receiver is in HUNT. The levels as operands of the row are the model's
choice (log entry 11). -/
def Obligations.ResponseSentFreesItsPlace : Prop :=
  ∀ (s : State) (p : Pins) (o : Outgoing) (rest : List Outgoing), s.inReset = false →
    s.port.tx = o :: rest →
      (o.place = .busy →
        ∃ t, exec (.responseSent p) s = .next t ∧ t.port = { s.port with tx := rest } ∧
          s.sameBut t [.port]) ∧
      (o.place = .command → s.job ≠ some .resetArmed →
        ∃ t, exec (.responseSent p) s = .next t ∧
          t.port = { s.port with tx := rest, cmd := none } ∧ s.sameBut t [.port]) ∧
      (o.place = .command → s.job = some .resetArmed → s.os.mode ≠ .off →
        exec (.responseSent p) s =
          .next
            { State.reset with
              pending := s.pending
              inReset := false
              log :=
                if s.journal = [] then s.log
                else
                  pushRecord
                    { stamp := 0, kind := .resetDiscard, member := none, page := none,
                      detail := BitVec.ofNat 8 (s.journal.length + 128), lost := false,
                      read := false }
                    s.log
              os :=
                { State.reset.os with
                  mode := s.os.mode, ads := p.ads, passHigh := p.passHigh, mselHigh := p.mselHigh,
                  start := some .busClear, msel := none }
              drain :=
                { drainHigh := p.drainHigh, pfailAsserted := p.pfailAsserted, episode := none }
              ds := { State.reset.ds with ctl := .clearing, drive := [.release] }
              port := { rx := .hunt, cmd := none, tx := [] } })

/-- The release of a held reset samples the straps, MSEL, DRAIN and PFAIL, opens the MSEL window with count
0, starts the time base at 0 and begins bus clear. In mode OFF the receiver is STOPPED. -/
def Obligations.ResetReleaseBeginsStartUp : Prop :=
  ∀ (s : State) (p : Pins), s.inReset = true →
    ∃ t, exec (.resetRelease p) s = .next t ∧ t.inReset = false ∧ t.now = 0 ∧
      t.os =
        { s.os with
          ads := p.ads, passHigh := p.passHigh, mselHigh := p.mselHigh, start := some .busClear,
          msel := some 0 } ∧
      t.drain = { s.drain with drainHigh := p.drainHigh, pfailAsserted := p.pfailAsserted } ∧
      t.ds.ctl = .clearing ∧ t.ds.waiting = s.ds.waiting ∧
      (s.os.mode = .off → t.port.rx = .stopped) ∧
      s.sameBut t [.inReset, .now, .os, .drain, .ds, .port]

/-- A rising edge on MSEL within the window adds one to the count. At the end of the window the count
sets the mode: 3 MONITOR, 5 SERVICE, any other OFF; a count that is not 0, 3 or 5 writes MSEL_INVALID;
the receiver opens in MONITOR and SERVICE. With its state prepared, the part leaves STARTING there:
READY rises, and the part enters RUN, FLUSH where PFAIL is asserted, or PASSTHROUGH with its cause. The
time of the window's end is the model's choice (log entry 2). -/
def Obligations.MselWindowSetsTheMode : Prop :=
  ∀ (s : State) (n : Nat), s.inReset = false → s.os.msel = some n →
    (∃ t, exec .mselPulse s = .next t ∧ t.os.msel = some (n + 1) ∧ t.os.mode = s.os.mode ∧
      t.os.part = s.os.part ∧ s.sameBut t [.os]) ∧
    ∃ t, exec .mselWindowEnd s = .next t ∧ t.now = max s.now 5000 ∧ t.os.msel = none ∧
      t.os.mode = (if n = 3 then .monitor else if n = 5 then .service else .off) ∧
      (t.port.rx = if n = 3 ∨ n = 5 then .hunt else .stopped) ∧
      t.log =
        (if n = 0 ∨ n = 3 ∨ n = 5 then s.log
        else
          pushRecord
            { stamp := BitVec.ofNat 32 (max s.now 5000 / 1000), kind := .mselInvalid,
              member := none, page := none, detail := BitVec.ofNat 8 (min n 255), lost := false,
              read := false } s.log) ∧
      t.members = s.members ∧ t.read = s.read ∧ t.landing = s.landing ∧ t.ds = s.ds ∧
      (∀ d, s.os.part = .starting → s.os.start = some (.leaving d) →
        t.os.start = none ∧ t.readyHigh = true ∧
        (d = .run → s.drain.pfailAsserted = false → t.os.part = .run ∧ t.os.cause = none) ∧
        (d = .run → s.drain.pfailAsserted = true → t.os.part = .flush ∧
          t.drain.episode = some { budget := .running, openedAt := t.now }) ∧
        (d = .passStrap → t.os.part = .passthrough ∧ t.os.cause = some .strap) ∧
        (∀ reason, d = .passInvalid reason →
          t.os.part = .passthrough ∧ t.os.cause = some .invalid ∧ t.alertLow = true))

/-- The end of the start-up descriptor read. A valid image gives the member table its used records, each
in state none with pointer 0, and the global values, no record is written, and the first journaled
member is probed, or RUN is prepared where there is none; an invalid one writes DESCRIPTOR_INVALID with
the reason code and prepares PASSTHROUGH; a refused device address makes another read due 1 ms later,
where that falls within the window, and none otherwise; a NACK of the word address or of the device
address (R) fails check 1. The START as the beginning of the window, its strict end, and the table
filled before the probe of a RELOAD, are the model's choice (log entries 5, 15 and 36). -/
def Obligations.DescriptorReadEndTakesTheImage : Prop :=
  ∀ (s : State) (h : Holder) (a : Access) (image : List Byte) (dev : DevAddr) (word : List Byte),
    s.inReset = false → s.ds.ctl = .busy h → h.req = .descriptorRead .startUp →
    h.txn = .read dev word 64 → image.length = 64 → s.os.start = some (.descriptorRead a) →
    a.asking = .inProgress → s.os.part = .starting →
      (validate s.os.ads image = none →
        ∃ t, exec (.descriptorReadEnd (.completed image)) s = .next t ∧
          t.members =
            (usedRecords image).map (fun r => { info := r, state := .unset, pointer := 0 }) ∧
          t.os.globals = some (readGlobals image) ∧ t.log = s.log ∧ s.probesFrom t 0) ∧
      (∀ reason, validate s.os.ads image = some reason →
        ∃ t, exec (.descriptorReadEnd (.completed image)) s = .next t ∧ t.members = s.members ∧
          t.os.globals = s.os.globals ∧
          t.log =
            pushRecord
              { stamp := s.stamp, kind := .descriptorInvalid, member := none, page := none,
                detail := BitVec.ofNat 8 reason, lost := false, read := false } s.log ∧
          (s.os.msel ≠ none → t.os.start = some (.leaving (.passInvalid reason))) ∧
          (s.os.msel = none → t.os.part = .passthrough ∧ t.os.cause = some .invalid)) ∧
      (∀ w, a.window = some w → s.now + 1000 < w + 10000 →
        ∃ t, exec (.descriptorReadEnd (.nack .deviceW)) s = .next t ∧
          t.os.start =
            some (.descriptorRead { asking := .dueAt (s.now + 1000), window := some w }) ∧
          t.ds.ctl = .free ∧ s.sameBut t [.os, .ds]) ∧
      (∀ w, a.window = some w → w + 10000 ≤ s.now + 1000 →
        ∃ t, exec (.descriptorReadEnd (.nack .deviceW)) s = .next t ∧
          t.os.start = some (.descriptorRead { asking := .noMore, window := some w }) ∧
          t.ds.ctl = .free ∧ s.sameBut t [.os, .ds]) ∧
      (∀ b, b ≠ .deviceW →
        ∃ t, exec (.descriptorReadEnd (.nack b)) s = .next t ∧ t.members = s.members ∧
          t.log =
            pushRecord
              { stamp := s.stamp, kind := .descriptorInvalid, member := none, page := none,
                detail := 1, lost := false, read := false } s.log)

/-- A refused access of start-up is requested again when it is due within its window. At the end of its
window a descriptor read fails check 1, wherever the read stands: with its last repetition made,
waiting, in progress or due. The times of the due access and of the window's end, and that the end
decides at once in the middle of a transaction or of a bus clear, are the model's choice (log entries 2
and 17). -/
def Obligations.StartUpAccessRepeatsInItsWindow : Prop :=
  ∀ (s : State) (due w : Micros), s.inReset = false →
    (s.os.start = some (.descriptorRead { asking := .dueAt due, window := some w }) →
      max s.now due < w + 10000 →
      ∃ t, exec .descriptorReadRetryDue s = .next t ∧ t.now = max s.now due ∧
        .descriptorRead .startUp ∈ t.ds.waiting ∧
        t.os.start = some (.descriptorRead { asking := .waiting, window := some w }) ∧
        s.sameBut t [.now, .os, .ds]) ∧
    (∀ asking, s.os.start = some (.descriptorRead { asking := asking, window := some w }) →
      ∃ t, exec .answerWindowEnd s = .next t ∧ t.now = max s.now (w + 10000) ∧
        .descriptorRead .startUp ∉ t.ds.waiting ∧ t.members = s.members ∧
        t.log =
          pushRecord
            { stamp := BitVec.ofNat 32 (max s.now (w + 10000) / 1000), kind := .descriptorInvalid,
              member := none, page := none, detail := 1, lost := false, read := false } s.log ∧
        (s.os.msel ≠ none → t.os.start = some (.leaving (.passInvalid 1))) ∧
        (s.os.part = .starting → s.os.msel = none →
          t.os.part = .passthrough ∧ t.os.cause = some .invalid)) ∧
    (∀ m, s.os.start = some (.probing m { asking := .dueAt due, window := some w }) →
      max s.now due < w + 10000 →
      ∃ t, exec .probeRetryDue s = .next t ∧ t.now = max s.now due ∧ .probe m ∈ t.ds.waiting ∧
        t.os.start = some (.probing m { asking := .waiting, window := some w }) ∧
        s.sameBut t [.now, .os, .ds])

/-- A probe's outcome: an acknowledge makes the member ONLINE; a refusal within the window makes another
probe due 1 ms later; the end of the window, wherever the probe stands, makes the member OFFLINE and
writes MEMBER_OFFLINE. After either, the next journaled member in index order is probed, or RUN is
prepared where there is none. The other members keep their states, and all keep their records. The time
of the window's end, the START as its beginning, and that the end decides at once in the middle of a
transaction or of a bus clear, are the model's choice (log entries 2, 5, 15 and 17). -/
def Obligations.ProbeSetsTheMemberState : Prop :=
  ∀ (s : State) (m : MemberIx) (w : Micros), s.inReset = false → m.val < s.members.length →
    (∀ h, s.ds.ctl = .busy h → h.req = .probe m →
      s.os.start = some (.probing m { asking := .inProgress, window := some w }) →
      (∃ t, exec (.probeEnd true) s = .next t ∧ t.memberState m = .online ∧
        (∀ k, k ≠ m → t.memberState k = s.memberState k) ∧ t.log = s.log ∧
        (∀ k, t.info k = s.info k) ∧ s.probesFrom t (m.val + 1)) ∧
      (s.now + 1000 < w + 10000 →
        ∃ t, exec (.probeEnd false) s = .next t ∧ t.members = s.members ∧
          t.os.start = some (.probing m { asking := .dueAt (s.now + 1000), window := some w }) ∧
          t.log = s.log ∧ s.sameBut t [.os, .ds]) ∧
      (w + 10000 ≤ s.now + 1000 →
        ∃ t, exec (.probeEnd false) s = .next t ∧ t.members = s.members ∧
          t.os.start = some (.probing m { asking := .noMore, window := some w }) ∧
          t.log = s.log ∧ s.sameBut t [.os, .ds])) ∧
    ∀ asking, s.os.start = some (.probing m { asking := asking, window := some w }) →
      ∃ t, exec .probeWindowEnd s = .next t ∧ t.memberState m = .offline ∧
        (∀ k, k ≠ m → t.memberState k = s.memberState k) ∧ .probe m ∉ t.ds.waiting ∧
        (∀ k, t.info k = s.info k) ∧ s.probesFrom t (m.val + 1) ∧
        t.log =
          pushRecord
            { stamp := BitVec.ofNat 32 (max s.now (w + 10000) / 1000), kind := .memberOffline,
              member := some m, page := none, detail := 0, lost := false, read := false } s.log

/-! ## The member table and the upstream engine -/

/-- The member lookup, for a table in which no two records share an address. It answers with a journaled
member exactly where a record has the bus address, its JOURNAL flag is set and its state is ONLINE,
CYCLE or HELD; the record with the address is found whatever its state; and where no record has it there
is no member. -/
def Obligations.LookupFindsJournaledMembers : Prop :=
  ∀ (s : State) (dev : DevAddr) (m : MemberIx),
    s.members.length ≤ 8 → s.members.Pairwise (fun a b => a.info.bus ≠ b.info.bus) →
      (s.journaledAt dev = some m ↔
        ∃ mem, s.members[m.val]? = some mem ∧ mem.info.bus = dev ∧ mem.info.journaled = true ∧
          (mem.state = .online ∨ mem.state = .cycle ∨ mem.state = .held)) ∧
      (s.memberAt dev = some m ↔ ∃ mem, s.members[m.val]? = some mem ∧ mem.info.bus = dev) ∧
      (s.memberAt dev = none ↔ ∀ mem ∈ s.members, mem.info.bus ≠ dev)

/-- A START in IDLE, ADDRESS or NOT_ADDRESSED opens the phase ADDRESS with the idle timer started, and
wakes the part from DOZE; a STOP in ADDRESS or NOT_ADDRESSED returns the record to IDLE with the idle
timer stopped. -/
def Obligations.StartAndStopFrameTransactions : Prop :=
  ∀ s : State, s.inReset = false →
    (s.up.phase = .idle ∨ s.up.phase = .address ∨ s.up.phase = .notAddressed →
      ∃ t, exec .upstreamStart s = .next t ∧
        t.up = { s.up with phase := .address, dir := none, idle := some s.now } ∧
        t.os.part = (if s.os.part = .doze then s.os.ret.getD .run else s.os.part) ∧
        t.os.mode = s.os.mode ∧ s.sameBut t [.up, .os]) ∧
    (s.up.phase = .address ∨ s.up.phase = .notAddressed →
      ∃ t, exec .upstreamStop s = .next t ∧
        t.up = { s.up with phase := .idle, dir := none, idle := none } ∧ s.sameBut t [.up])

/-- Admission: a write address byte of a journaled member in RUN is refused where the member is HELD or
the list is full, and is otherwise acknowledged into the phase WRITE with the reservation. Neither
changes the list, a pointer or the log. -/
def Obligations.AdmissionDecidesWrites : Prop :=
  ∀ (s : State) (dev : DevAddr) (m : MemberIx), s.inReset = false → s.up.phase = .address →
    s.os.part = .run → s.journaledAt dev = some m →
      ∃ t, exec (.addressByte dev .write) s = .next t ∧ s.sameBut t [.up] ∧
        (s.memberState m = .held ∨ 32 ≤ s.journal.length →
          t.up =
            { phase := .notAddressed, dir := some .write, idle := none, drive := [.nack] }) ∧
        (s.memberState m ≠ .held → s.journal.length < 32 →
          t.up =
            { phase := .write { member := m, word := [], dataCount := 0, mark := .clear }
              dir := some .write, idle := some s.now, drive := [.ack] } ∧
          t.reserved = true)

/-- The busy policy: a read address byte of a journaled member in RUN is refused, with nothing else
changed, where the member's slot holds an entry under the NACK policy; otherwise it is acknowledged and
the read opens with an empty buffer, and the read hold withdraws the member's waiting issue. The first
byte, at the pointer, is due in the same slot: it is served from the youngest entry that holds it, else
by a fetch, held for the cycle while the member is in CYCLE and raised otherwise. -/
def Obligations.BusyPolicyDecidesReads : Prop :=
  ∀ (s : State) (dev : DevAddr) (m : MemberIx), s.inReset = false → s.up.phase = .address →
    s.os.part = .run → s.journaledAt dev = some m →
      ((s.slot m).isSome = true → (s.info m).hold = false →
        ∃ t, exec (.addressByte dev .read) s = .next t ∧
          t.up = { phase := .notAddressed, dir := some .read, idle := none, drive := [.nack] } ∧
          s.sameBut t [.up]) ∧
      ((s.slot m = none ∨ (s.info m).hold = true) →
        ∃ t r, exec (.addressByte dev .read) s = .next t ∧ t.up.phase = .read ∧
          t.up.drive.head? = some .ack ∧ t.read = some r ∧ r.member = m ∧ r.buffer = none ∧
          r.recorded = false ∧ r.ended = false ∧ .issue m ∉ t.ds.waiting ∧
          (∀ b, s.overlayByte m (s.pointer m) = some b →
            r.cond = .serving ∧ t.usclHeld = false ∧
            t.up =
              { phase := .read, dir := some .read, idle := some s.now,
                drive := [.ack, .byte b] }) ∧
          (s.overlayByte m (s.pointer m) = none →
            t.usclHeld = true ∧
            t.up = { phase := .read, dir := some .read, idle := none, drive := [.ack] } ∧
            (s.memberState m = .cycle →
              r.cond = .waiting s.now { state := .heldForCycle, addr := s.pointer m }) ∧
            (s.memberState m ≠ .cycle →
              r.cond = .waiting s.now { state := .waitingGrant, addr := s.pointer m } ∧
              .fetch ∈ t.ds.waiting)) ∧
          s.sameBut t [.up, .read, .ds])

/-- An address byte that no journaled member takes. In STARTING, FLUSH and HALT_DOWN it is answered NACK
and nothing else changes. In PASSTHROUGH, and in RUN where it names no journaled member, it is to be
relayed: USCL is held, a relay request is raised and the stretch starts. A relay that is not granted
within the hold limit in force is refused: the request is withdrawn and the byte answered NACK, with no
record. The time of that refusal is the model's choice (log entry 2). -/
def Obligations.OtherAddressesAreRefusedOrRelayed : Prop :=
  ∀ (s : State) (dev : DevAddr) (dir : Dir), s.inReset = false →
    (s.up.phase = .address →
      (s.os.part = .starting ∨ s.os.part = .flush ∨ s.os.part = .haltDown →
        ∃ t, exec (.addressByte dev dir) s = .next t ∧
          t.up = { phase := .notAddressed, dir := some dir, idle := none, drive := [.nack] } ∧
          s.sameBut t [.up]) ∧
      (s.os.part = .passthrough ∨ (s.os.part = .run ∧ s.journaledAt dev = none) →
        ∃ t, exec (.addressByte dev dir) s = .next t ∧
          t.up =
            { phase := .relayWait dev (s.os.part == .run) s.now, dir := some dir, idle := none,
              drive := [] } ∧
          t.usclHeld = true ∧ .relay ∈ t.ds.waiting ∧ s.sameBut t [.up, .ds])) ∧
    (∀ inRun t0, s.up.phase = .relayWait dev inRun t0 →
      ∃ t, exec .relayHoldExpiry s = .next t ∧
        t.now = max s.now (t0 + 1000 * ((s.os.globals.map (·.holdMs)).getD 100)) ∧
        t.up = { s.up with phase := .notAddressed, idle := none, drive := [.nack] } ∧
        .relay ∉ t.ds.waiting ∧ s.sameBut t [.now, .up, .ds])

/-- A word-address byte is acknowledged. The last one sets the member's pointer to the word address
modulo the capacity and binds the landing buffer, empty, to the pointer's page; the byte before it
changes neither. -/
def Obligations.WordAddressSetsPointerAndLanding : Prop :=
  ∀ (s : State) (w : OpenWrite) (b : Byte), s.inReset = false → s.up.phase = .write w →
    w.word.length < (s.info w.member).wordWidth → w.member.val < s.members.length →
      ∃ t, exec (.wordAddressByte b) s = .next t ∧
        t.up =
          { s.up with
            phase := .write { w with word := w.word ++ [b] }, idle := some s.now,
            drive := [.ack] } ∧
        (∀ k, k ≠ w.member → t.pointer k = s.pointer k) ∧
        (∀ k, t.memberState k = s.memberState k) ∧
        (w.word.length + 1 = (s.info w.member).wordWidth →
          t.pointer w.member = wordValue (w.word ++ [b]) % (s.info w.member).capacity ∧
          t.landing =
            some
              { member := w.member
                page :=
                  wordValue (w.word ++ [b]) % (s.info w.member).capacity /
                    (s.info w.member).pageSize
                image := List.replicate (s.info w.member).pageSize none }) ∧
        (w.word.length + 1 < (s.info w.member).wordWidth →
          t.members = s.members ∧ t.landing = s.landing) ∧
        s.sameBut t [.up, .members, .landing]

/-- A data byte of an admitted write: stored at the pointer's offset with its flag set and acknowledged,
the pointer moving on within the page; refused with PROTECTED_WRITE and the mark PROTECTED in the
descriptor region, the landing buffer discarded and the pointer kept; and refused with nothing else
changed where the write already carries an abort mark. -/
def Obligations.DataByteStoredOrRefused : Prop :=
  ∀ (s : State) (w : OpenWrite) (b : Byte), s.inReset = false → s.up.phase = .write w →
    (s.info w.member).wordWidth ≤ w.word.length →
      (∀ l, w.mark = .clear → s.landing = some l → w.member.val < s.members.length →
        ¬((s.info w.member).bus = s.descriptorDev ∧ s.pointer w.member < 0x40) →
        ∃ t, exec (.writeDataByte b) s = .next t ∧
          t.up =
            { s.up with
              phase := .write { w with dataCount := w.dataCount + 1 }, idle := some s.now,
              drive := [.ack] } ∧
          t.landing =
            some
              { l with
                image := l.image.set (s.pointer w.member % (s.info w.member).pageSize) (some b) } ∧
          t.pointer w.member =
            s.pointer w.member / (s.info w.member).pageSize * (s.info w.member).pageSize +
              (s.pointer w.member % (s.info w.member).pageSize + 1) %
                (s.info w.member).pageSize ∧
          (∀ k, k ≠ w.member → t.pointer k = s.pointer k) ∧
          s.sameBut t [.up, .landing, .members]) ∧
      (w.mark = .clear → (s.info w.member).bus = s.descriptorDev → s.pointer w.member < 0x40 →
        ∃ t, exec (.writeDataByte b) s = .next t ∧
          t.up =
            { s.up with
              phase := .write { w with mark := .prot }, idle := some s.now, drive := [.nack] } ∧
          t.landing = none ∧
          t.log =
            pushRecord
              { stamp := s.stamp, kind := .protectedWrite, member := some w.member,
                page := some (s.pointer w.member / (s.info w.member).pageSize), detail := 0,
                lost := false, read := false } s.log ∧
          s.sameBut t [.up, .landing, .log]) ∧
      (w.mark ≠ .clear →
        ∃ t, exec (.writeDataByte b) s = .next t ∧
          t.up = { s.up with idle := some s.now, drive := [.nack] } ∧ s.sameBut t [.up])

/-- The STOP of a write whose landing buffer holds a byte, where the journal has a merge target: the
landing bytes replace the target's at the offsets whose landing flag is set and their flags are set, the
other offsets are left, the valid count follows, and the deadline becomes the STOP plus the dwell.
Position, state, attempts and mark of the target, the other entries and the free count are unchanged. -/
def Obligations.HandOverMergesIntoItsTarget : Prop :=
  ∀ (s : State) (w : OpenWrite) (l : Landing) (i : Nat) (e : Entry), s.inReset = false →
    s.up.phase = .write w → w.mark = .clear → s.landing = some l → l.image.validCount ≠ 0 →
    s.mergeTarget l.member l.page = some i → s.journal[i]? = some e →
    e.image.length = l.image.length →
      ∃ t e', exec .writeStop s = .next t ∧ t.journal[i]? = some e' ∧
        (∀ o b, l.image.byteAt o = some b → e'.image.byteAt o = some b) ∧
        (∀ o, l.image.byteAt o = none → e'.image.byteAt o = e.image.byteAt o) ∧
        e'.image.validCount =
          ((List.range e.image.length).filter fun o =>
            (l.image.byteAt o).isSome || (e.image.byteAt o).isSome).length ∧
        e'.deadline = s.now + 1000 * (s.info l.member).dwellMs ∧ e'.state = e.state ∧
        e'.attempts = e.attempts ∧ e'.marked = e.marked ∧ e'.member = e.member ∧
        e'.page = e.page ∧ (∀ j, j ≠ i → t.journal[j]? = s.journal[j]?) ∧
        t.freeCount = s.freeCount ∧ t.up.phase = .idle ∧ t.landing = none ∧
        t.reserved = false ∧ s.sameBut t [.journal, .up, .landing]

/-- The STOP of a write whose landing buffer holds a byte, where the journal has no merge target: a new
entry joins at the tail with the landing's member, page, mask and data, PENDING or HELD with its member,
attempts 0, deadline at the STOP plus the dwell, no mark and no optional part, and the free count falls
by one. -/
def Obligations.HandOverAllocatesAtTheTail : Prop :=
  ∀ (s : State) (w : OpenWrite) (l : Landing), s.inReset = false → s.up.phase = .write w →
    w.mark = .clear → s.landing = some l → l.image.validCount ≠ 0 →
    s.mergeTarget l.member l.page = none → s.journal.length < 32 →
      ∃ t e, exec .writeStop s = .next t ∧ t.journal = s.journal ++ [e] ∧ e.member = l.member ∧
        e.page = l.page ∧ e.image = l.image ∧ e.image.validCount = l.image.validCount ∧
        (s.memberState l.member ≠ .held → e.state = .pending) ∧
        (s.memberState l.member = .held → e.state = .held) ∧ e.attempts = 0 ∧
        e.deadline = s.now + 1000 * (s.info l.member).dwellMs ∧ e.marked = false ∧
        e.flight? = none ∧ t.freeCount + 1 = s.freeCount ∧ t.up.phase = .idle ∧
        t.landing = none ∧ t.reserved = false ∧ s.sameBut t [.journal, .up, .landing]

/-- The merge target. A loose member has one exactly where it has a PENDING entry for the page, and with
one PENDING entry for a page at most (OnePendingPerPageKept) it is that entry. A strict member's is its
youngest entry, where that is PENDING and for the page, and it has none otherwise. -/
def Obligations.MergeTargetFollowsTheOrder : Prop :=
  ∀ (s : State) (m : MemberIx) (page : Nat),
    ((s.info m).strict = false →
      (s.mergeTarget m page = none ↔
        ∀ e ∈ s.journal, e.member = m → e.page = page → e.isPending = false) ∧
      (s.OnePending → ∀ i,
        (s.mergeTarget m page = some i ↔
          ∃ e, s.journal[i]? = some e ∧ e.member = m ∧ e.page = page ∧ e.isPending = true))) ∧
    ((s.info m).strict = true → ∀ i,
      (s.mergeTarget m page = some i ↔
        ∃ e, s.journal[i]? = some e ∧ e.member = m ∧ e.page = page ∧ e.isPending = true ∧
          ∀ j e', i < j → s.journal[j]? = some e' → e'.member ≠ m))

/-- A write that ends without a hand-over leaves the journal as it was: a repeated START, whatever was
received, and a STOP with no byte stored, with an incomplete word address, or with an abort mark. Where
PFAIL aborted the write and a byte had been stored, FLUSH_ABORT gives the number of valid bytes
discarded; otherwise no record is written. -/
def Obligations.WriteEndsWithoutHandOver : Prop :=
  ∀ (s : State) (w : OpenWrite) (log' : List FaultRecord), s.inReset = false →
    s.up.phase = .write w →
    ((w.mark ≠ .pfail ∨ ∀ l, s.landing = some l → l.image.validCount = 0) ∧ log' = s.log ∨
      ∃ l, w.mark = .pfail ∧ s.landing = some l ∧ l.image.validCount ≠ 0 ∧
        log' =
          pushRecord
            { stamp := s.stamp, kind := .flushAbort, member := some l.member,
              page := some l.page, detail := BitVec.ofNat 8 l.image.validCount, lost := false,
              read := false } s.log) →
      (∃ t, exec .writeRepeatedStart s = .next t ∧ t.up.phase = .address ∧
        t.up.idle = some s.now ∧ t.landing = none ∧ t.reserved = false ∧ t.log = log' ∧
        s.sameBut t [.up, .landing, .log]) ∧
      (w.mark ≠ .clear ∨ (∀ l, s.landing = some l → l.image.validCount = 0) →
        ∃ t, exec .writeStop s = .next t ∧ t.up.phase = .idle ∧ t.up.idle = none ∧
          t.landing = none ∧ t.reserved = false ∧ t.log = log' ∧
          s.sameBut t [.up, .landing, .log])

/-- The upstream idle limit: the lines are released, UP_TIMEOUT is written with the phase's member and
page, and the phase becomes IDLE; in ADDRESS no record is written. In WRITE the landing buffer is
discarded, with FLUSH_ABORT first where PFAIL aborted a write that had stored a byte. In READ the open
read ends. In RELAY the downstream side ends with STOP, after a NACK where a read byte's slot is
pending; a relay refused by protection only gives up its grant, and a failed one has none. The page of a
WRITE is the pointer's (log entry 19). The time of the limit, the slot that a bare repeated START leaves
pending, and the STOP that follows a slot which a target may still hold up, are the model's choice (log
entries 2, 10, 34 and 35). -/
def Obligations.IdleLimitEndsThePhase : Prop :=
  ∀ (s : State) (t0 now' : Micros), s.inReset = false → s.up.idle = some t0 →
    now' = max s.now (t0 + 35000) →
    (s.up.phase = .address →
      ∃ t, exec .upTimeout s = .next t ∧ t.now = now' ∧
        t.up = { phase := .idle, dir := none, idle := none, drive := [] } ∧
        s.sameBut t [.now, .up]) ∧
    (∀ w log', s.up.phase = .write w →
      ((w.mark ≠ .pfail ∨ ∀ l, s.landing = some l → l.image.validCount = 0) ∧ log' = s.log ∨
        ∃ l, w.mark = .pfail ∧ s.landing = some l ∧ l.image.validCount ≠ 0 ∧
          log' =
            pushRecord
              { stamp := BitVec.ofNat 32 (now' / 1000), kind := .flushAbort,
                member := some l.member, page := some l.page,
                detail := BitVec.ofNat 8 l.image.validCount, lost := false, read := false }
              s.log) →
      ∃ t, exec .upTimeout s = .next t ∧ t.now = now' ∧
        t.up = { phase := .idle, dir := none, idle := none, drive := [] } ∧ t.landing = none ∧
        t.log =
          pushRecord
            { stamp := BitVec.ofNat 32 (now' / 1000), kind := .upTimeout,
              member := some w.member,
              page :=
                if (s.info w.member).wordWidth ≤ w.word.length then
                  some (s.pointer w.member / (s.info w.member).pageSize)
                else none
              detail := 0, lost := false, read := false } log' ∧
        s.sameBut t [.now, .up, .landing, .log]) ∧
    (∀ r, s.up.phase = .read → s.read = some r →
      ∃ t, exec .upTimeout s = .next t ∧ t.now = now' ∧
        t.up = { phase := .idle, dir := none, idle := none, drive := [] } ∧ t.read = none ∧
        t.log =
          pushRecord
            { stamp := BitVec.ofNat 32 (now' / 1000), kind := .upTimeout,
              member := some r.member,
              page := some (s.pointer r.member / (s.info r.member).pageSize), detail := 0,
              lost := false, read := false } s.log ∧
        s.sameBut t [.now, .up, .read, .ds, .log]) ∧
    ∀ r, s.up.phase = .relay r →
      ∃ t, exec .upTimeout s = .next t ∧ t.now = now' ∧
        t.up = { phase := .idle, dir := none, idle := none, drive := [] } ∧
        t.log =
          pushRecord
            { stamp := BitVec.ofNat 32 (now' / 1000), kind := .upTimeout, member := none,
              page := none, detail := 0, lost := false, read := false } s.log ∧
        (r.mark = .clear → r.step = .readShown ∨ r.step = .restarted true →
          t.ds =
            { s.ds with
              ctl := .free, drive := [.nack, .stop, .release], moved := now', closing := true }) ∧
        (r.mark = .clear → r.step ≠ .readShown → r.step ≠ .restarted true →
          t.ds =
            { (({ s with now := now' } : State).follow [.stop, .release]).ds with
              ctl := .free, closing := true }) ∧
        (r.mark = .prot → t.ds = { s.ds with ctl := .free, closing := true }) ∧
        (r.mark = .failed → t.ds = s.ds) ∧ s.sameBut t [.now, .up, .ds, .log]

/-! ## The read path -/

/-- A read byte has been clocked out: the pointer moves on by one, wrapping at the capacity. After a
NACK no further byte is served. After an ACK the next byte is due. In UNDERRUN it is 0xFF, with no
further record. Otherwise it is served from the youngest entry that holds it, else from the fetch
buffer, else by a fetch for which the read waits: held for the cycle while the member is in CYCLE, and
raised otherwise. In HALT_DOWN a fetch fails at once, and the read enters UNDERRUN with one
READ_UNDERRUN record of detail FETCH_FAILED. -/
def Obligations.DueByteComesFromItsSource : Prop :=
  ∀ (s : State) (r : OpenRead) (a : Nat), s.inReset = false → s.up.phase = .read →
    s.read = some r → r.ended = false → r.member.val < s.members.length →
    a = (s.pointer r.member + 1) % (s.info r.member).capacity →
      (r.cond = .serving ∨ r.cond = .underrun →
        ∃ t, exec (.readByteAnswer false) s = .next t ∧ t.pointer r.member = a ∧
          t.read = some { r with ended := true } ∧ t.up.drive = [] ∧ t.up.idle = some s.now ∧
          s.sameBut t [.up, .read, .members]) ∧
      (r.cond = .underrun →
        ∃ t, exec (.readByteAnswer true) s = .next t ∧ t.pointer r.member = a ∧ t.read = some r ∧
          t.up.drive = [.byte 0xFF] ∧ t.up.idle = some s.now ∧ t.usclHeld = false ∧
          s.sameBut t [.up, .members]) ∧
      (r.cond = .serving →
        (∀ b, s.overlayByte r.member a = some b →
          ∃ t, exec (.readByteAnswer true) s = .next t ∧ t.pointer r.member = a ∧
            t.read = some r ∧ t.up.drive = [.byte b] ∧ t.usclHeld = false ∧
            s.sameBut t [.up, .members]) ∧
        (∀ f b, s.overlayByte r.member a = none → r.buffer = some f → f.byteAt a = some b →
          ∃ t, exec (.readByteAnswer true) s = .next t ∧ t.pointer r.member = a ∧
            t.read = some r ∧ t.up.drive = [.byte b] ∧ t.usclHeld = false ∧
            s.sameBut t [.up, .members]) ∧
        (s.overlayByte r.member a = none → (∀ f, r.buffer = some f → f.byteAt a = none) →
          (s.os.part = .haltDown →
            ∃ t, exec (.readByteAnswer true) s = .next t ∧ t.pointer r.member = a ∧
              t.read = some { r with cond := .underrun, buffer := none, recorded := true } ∧
              t.up.drive = [.byte 0xFF] ∧ t.up.idle = some s.now ∧ t.usclHeld = false ∧
              t.log =
                (if r.recorded then s.log
                else
                  pushRecord
                    { stamp := s.stamp, kind := .readUnderrun, member := some r.member,
                      page := some (a / (s.info r.member).pageSize), detail := 2, lost := false,
                      read := false } s.log) ∧
              s.sameBut t [.up, .read, .members, .log]) ∧
          (s.os.part ≠ .haltDown → s.memberState r.member = .cycle →
            ∃ t, exec (.readByteAnswer true) s = .next t ∧ t.pointer r.member = a ∧
              t.read =
                some { r with cond := .waiting s.now { state := .heldForCycle, addr := a } } ∧
              t.usclHeld = true ∧ t.up.idle = none ∧ s.sameBut t [.up, .read, .members]) ∧
          (s.os.part ≠ .haltDown → s.memberState r.member ≠ .cycle →
            ∃ t, exec (.readByteAnswer true) s = .next t ∧ t.pointer r.member = a ∧
              t.read =
                some { r with cond := .waiting s.now { state := .waitingGrant, addr := a } } ∧
              .fetch ∈ t.ds.waiting ∧ t.usclHeld = true ∧ t.up.idle = none ∧
              s.sameBut t [.up, .read, .members, .ds])))

/-- The overlay is the youngest entry's byte: the last entry in list order of the member, for the page
of the address, whose flag at the offset is set. -/
def Obligations.OverlayIsTheYoungestByte : Prop :=
  ∀ (s : State) (m : MemberIx) (a : Nat) (b : Byte),
    s.overlayByte m a = some b ↔
      ∃ (i : Nat) (e : Entry), s.journal[i]? = some e ∧ e.member = m ∧
        e.page = a / (s.info m).pageSize ∧
        e.image.byteAt (a % (s.info m).pageSize) = some b ∧
        ∀ (j : Nat) (e' : Entry), i < j → s.journal[j]? = some e' → e'.member = m →
          e'.page = a / (s.info m).pageSize →
          e'.image.byteAt (a % (s.info m).pageSize) = none

/-- The end of an open read: the record and its buffer cease to exist, a waiting fetch is withdrawn, an
issue that the read hold kept back is raised, and the phase becomes IDLE at a STOP and ADDRESS at a
repeated START. No record is written. -/
def Obligations.ReadEndsWithItsRecord : Prop :=
  ∀ (s : State) (r : OpenRead), s.inReset = false → s.up.phase = .read → s.read = some r →
    (∃ t, exec (.readEnd .stop) s = .next t ∧ t.read = none ∧ t.up.phase = .idle ∧
      t.up.idle = none ∧ .fetch ∉ t.ds.waiting ∧
      (∀ f, s.slot r.member = some f → f.stage = .issuing → f.due = none →
        s.inProgress (.issue r.member) = false → .issue r.member ∈ t.ds.waiting) ∧
      s.sameBut t [.up, .read, .ds]) ∧
    ∃ t, exec (.readEnd .repeatedStart) s = .next t ∧ t.read = none ∧ t.up.phase = .address ∧
      t.up.idle = some s.now ∧ .fetch ∉ t.ds.waiting ∧
      (∀ f, s.slot r.member = some f → f.stage = .issuing → f.due = none →
        s.inProgress (.issue r.member) = false → .issue r.member ∈ t.ds.waiting) ∧
      s.sameBut t [.up, .read, .ds]

/-- The end of the fetch a read waits for: a completion replaces the buffer and serves the due byte; a
refused device address makes the fetch due again 200 µs later; another NACK puts the read into UNDERRUN
with 0xFF for the due byte and one READ_UNDERRUN record of detail FETCH_FAILED. The outcome of a fetch
that no read waits for, since its read has ended or entered UNDERRUN, is dropped. The time of the
controller's latest move is kept by the model's choice (log entry 34). -/
def Obligations.FetchEndServesOrFails : Prop :=
  ∀ (s : State) (h : Holder) (dev : DevAddr) (word bytes : List Byte), s.inReset = false →
    s.ds.ctl = .busy h → h.req = .fetch → h.txn = .read dev word bytes.length →
    (∀ r t0 f, s.read = some r → r.cond = .waiting t0 f → f.state = .inProgress →
      (∀ b, f.addr = s.pointer r.member → bytes.head? = some b →
        ∃ t, exec (.fetchEnd (.completed bytes)) s = .next t ∧
          t.read =
            some
              { r with
                cond := .serving, buffer := some { start := f.addr, bytes := bytes } } ∧
          t.up.drive = [.byte b] ∧ t.up.idle = some s.now ∧ t.ds.ctl = .free ∧
          s.sameBut t [.up, .read, .ds]) ∧
      (∃ t, exec (.fetchEnd (.nack .deviceW)) s = .next t ∧
        t.read =
          some { r with cond := .waiting t0 { f with state := .dueAgain (s.now + 200) } } ∧
        t.ds.ctl = .free ∧ s.sameBut t [.read, .ds]) ∧
      (∀ n, n ≠ .deviceW → r.recorded = false →
        ∃ t, exec (.fetchEnd (.nack n)) s = .next t ∧
          t.read = some { r with cond := .underrun, buffer := none, recorded := true } ∧
          t.up.drive = [.byte 0xFF] ∧ t.up.idle = some s.now ∧
          t.log =
            pushRecord
              { stamp := s.stamp, kind := .readUnderrun, member := some r.member,
                page := some (s.pointer r.member / (s.info r.member).pageSize), detail := 2,
                lost := false, read := false } s.log ∧
          s.sameBut t [.up, .read, .ds, .log])) ∧
    ∀ report, report = .completed bytes ∨ (∃ n, report = .nack n) →
      (∀ r t0 f, s.read = some r → r.cond = .waiting t0 f → f.state ≠ .inProgress) →
        ∃ t, exec (.fetchEnd report) s = .next t ∧
          t.ds =
            { s.ds with
              ctl := .free, drive := [.stop, .release], moved := s.now, closing := false } ∧
          s.sameBut t [.ds]

/-- A refused fetch is raised again at its due time, or held for the cycle where the member has entered
CYCLE. The hold limit of a stretch puts the read into UNDERRUN with detail HOLD_EXPIRED and serves 0xFF,
whatever the fetch does: one that waits is withdrawn, one for which the controller is OPENING is not
made, and one in progress keeps its grant. The times of both events are the model's choice (log entry
2). -/
def Obligations.WaitingReadGoesOnOrExpires : Prop :=
  ∀ (s : State) (r : OpenRead) (t0 : Micros) (f : Fetch), s.inReset = false →
    s.read = some r → r.cond = .waiting t0 f →
      (∀ due, f.state = .dueAgain due →
        (s.memberState r.member ≠ .cycle →
          ∃ t, exec .fetchDueAgain s = .next t ∧ t.now = max s.now due ∧
            t.read = some { r with cond := .waiting t0 { f with state := .waitingGrant } } ∧
            .fetch ∈ t.ds.waiting ∧ s.sameBut t [.now, .read, .ds]) ∧
        (s.memberState r.member = .cycle →
          ∃ t, exec .fetchDueAgain s = .next t ∧ t.now = max s.now due ∧
            t.read = some { r with cond := .waiting t0 { f with state := .heldForCycle } } ∧
            s.sameBut t [.now, .read])) ∧
      ∃ t, exec .readHoldExpiry s = .next t ∧ t.now = max s.now (t0 + s.readHoldLimit) ∧
        t.read = some { r with cond := .underrun, buffer := none, recorded := true } ∧
        t.up.drive = [.byte 0xFF] ∧ t.up.idle = some t.now ∧
        t.ds.waiting = s.ds.waiting.filter (· != .fetch) ∧
        (∀ h, s.ds.ctl = .busy h → t.ds.ctl = .busy h) ∧
        (∀ c, s.ds.ctl = .opening .fetch c → t.ds.ctl = .free) ∧
        t.log =
          (if r.recorded then s.log
          else
            pushRecord
              { stamp := BitVec.ofNat 32 (max s.now (t0 + s.readHoldLimit) / 1000),
                kind := .readUnderrun, member := some r.member,
                page := some (s.pointer r.member / (s.info r.member).pageSize), detail := 1,
                lost := false, read := false } s.log) ∧
        s.sameBut t [.now, .read, .up, .ds, .log]

/-! ## Relays -/

/-- The bytes of a relay. With no abort mark, a host byte that protection does not refuse goes
downstream with USCL held; the target's answer is given to the host; after an acknowledged address byte
(R) a read byte is due; a read byte is given to the host; and the host's answer of it is given
downstream. While the host has the turn, and before the downstream slot of a read byte, the controller
holds DSCL low. That after a refused address byte (R) the host has the turn, the time of the controller's
latest move, and that no row tells the end of the slot of a last byte, are the model's choice (log
entries 29 and 34). With an abort mark, each host byte is answered NACK, each read byte that falls due
is 0xFF with USCL released, the host's answers go nowhere, and nothing is sent downstream. -/
def Obligations.RelayMirrorsEachByte : Prop :=
  ∀ (s : State) (r : OpenRelay), s.inReset = false → s.up.phase = .relay r →
    (r.mark = .clear →
      (∀ b, r.step = .hostTurn → s.relayProtected r = false →
        ∃ t r', exec (.relayHostByte b) s = .next t ∧ t.up.phase = .relay r' ∧
          r' = { r.advance b with step := .byteSent } ∧
          t.ds = { s.ds with drive := [.byte b], moved := s.now } ∧ t.usclHeld = true ∧
          t.dsclHeld = false ∧ t.up.idle = none ∧ s.sameBut t [.up, .ds]) ∧
      (∀ ack,
        r.step = .byteSent ∨ (r.step = .addressSent ∧ (s.up.dir ≠ some .read ∨ ack = false)) →
        ∃ t, exec (.relayTargetAnswer ack) s = .next t ∧
          t.up.phase = .relay { r with step := .hostTurn } ∧
          t.up.drive = [if ack then .ack else .nack] ∧ t.usclHeld = false ∧ t.dsclHeld = true ∧
          t.up.idle = some s.now ∧ s.sameBut t [.up]) ∧
      (r.step = .addressSent → s.up.dir = some .read →
        ∃ t, exec (.relayTargetAnswer true) s = .next t ∧
          t.up.phase = .relay { r with step := .readDue } ∧ t.up.drive = [.ack] ∧
          t.usclHeld = true ∧ t.dsclHeld = false ∧ t.ds = { s.ds with moved := s.now } ∧
          s.sameBut t [.up, .ds]) ∧
      (∀ b, r.step = .readDue →
        ∃ t, exec (.relayReadByte b) s = .next t ∧
          t.up.phase = .relay { r with step := .readShown } ∧ t.up.drive = [.byte b] ∧
          t.usclHeld = false ∧ t.dsclHeld = true ∧ s.sameBut t [.up]) ∧
      (r.step = .readShown →
        (∃ t, exec (.relayHostReadAnswer true) s = .next t ∧
          t.up.phase = .relay { r with step := .readDue } ∧
          t.ds = { s.ds with drive := [.ack], moved := s.now } ∧ t.usclHeld = true ∧
          t.dsclHeld = false ∧ s.sameBut t [.up, .ds]) ∧
        ∃ t, exec (.relayHostReadAnswer false) s = .next t ∧
          t.up.phase = .relay { r with step := .readDone } ∧
          t.ds = { s.ds with drive := [.nack], moved := s.now, closing := true } ∧
          t.usclHeld = false ∧ t.dsclHeld = true ∧ s.sameBut t [.up, .ds])) ∧
    (r.mark ≠ .clear →
      (∀ b, r.step = .hostTurn ∨ r.step = .readDone →
        ∃ t, exec (.relayHostByte b) s = .next t ∧
          t.up = { s.up with idle := some s.now, drive := [.nack] } ∧ s.sameBut t [.up]) ∧
      (∀ ack, exec (.relayTargetAnswer ack) s = .next s) ∧
      (∀ b, exec (.relayReadByte b) s = .next s) ∧
      (r.step = .readShown →
        (∃ t, exec (.relayHostReadAnswer true) s = .next t ∧
          t.up = { s.up with idle := some s.now, drive := [.byte 0xFF] } ∧
          t.usclHeld = false ∧ s.sameBut t [.up]) ∧
        ∃ t, exec (.relayHostReadAnswer false) s = .next t ∧
          t.up =
            { s.up with
              phase := .relay { r with step := .readDone }, idle := some s.now, drive := [] } ∧
          s.sameBut t [.up]))

/-- The protection of a relayed descriptor device in a write segment begun in RUN: the first data byte
into the region, and the byte that would leave the 64-byte block of the word address, are answered NACK
and not sent, with PROTECTED_WRITE, STOP downstream and the mark PROTECTED; the relay keeps its grant.
That no row tells the end of this STOP, and the time of it, are the model's fields (log entry 34). -/
def Obligations.RelayedDescriptorIsProtected : Prop :=
  ∀ (s : State) (r : OpenRelay) (b hi lo : Byte), s.inReset = false → s.up.phase = .relay r →
    r.mark = .clear → r.step = .hostTurn → r.inRun = true → s.up.dir = some .write →
    r.dev = s.descriptorDev → r.word = [hi, lo] →
    (r.count = 0 ∧ (256 * hi.toNat + lo.toNat) % 512 < 0x40 ∨
      1 ≤ r.count ∧ ((256 * hi.toNat + lo.toNat) % 512 + r.count) % 64 = 0) →
      ∃ t, exec (.relayHostByte b) s = .next t ∧
        t.up.phase = .relay { r with mark := .prot } ∧ t.up.drive = [.nack] ∧
        t.ds = { s.ds with drive := [.stop, .release], moved := s.now, closing := true } ∧
        t.log =
          pushRecord
            { stamp := s.stamp, kind := .protectedWrite, member := s.memberAt r.dev,
              page := some ((256 * hi.toNat + lo.toNat) % 512 / 64), detail := 0, lost := false,
              read := false } s.log ∧
        s.sameBut t [.up, .ds, .log]

/-- A relay ends at the host's STOP, which is forwarded where the relay carries no mark. A repeated
START with an address byte to be relayed again goes downstream under the same grant. One to a journaled
member in RUN ends the downstream side with STOP and frees the bus, and the byte is answered by
admission or by the busy policy; one that the part state refuses ends it too and is answered NACK. A
relay with an abort mark answers it NACK and sends nothing. The repeated START with its address byte as
one event, which the bare START and its address byte make in two, the STOP or repeated START that waits
for a slot of the last read byte which a target may still hold up, with its times counted from that
slot, and the slot of a read byte left without an answer, are the model's choice (log entries 10, 34
and 35). -/
def Obligations.RelayEndsAtStopOrRestart : Prop :=
  ∀ (s : State) (r : OpenRelay), s.inReset = false → s.up.phase = .relay r →
    (∀ acts,
      (s.ds.closing = true → s.moving = true →
        (s.follow acts).ds = { s.ds with drive := s.ds.drive ++ acts, closing := false }) ∧
      (s.ds.closing = false ∨ s.moving = false →
        (s.follow acts).ds = { s.ds with drive := acts, moved := s.now, closing := false })) ∧
    (r.mark = .clear →
      ∃ t, exec .relayStop s = .next t ∧ t.up.phase = .idle ∧ t.up.idle = none ∧
        t.ds = { (s.follow [.stop, .release]).ds with ctl := .free, closing := true } ∧
        s.sameBut t [.up, .ds]) ∧
    (r.mark = .prot →
      ∃ t, exec .relayStop s = .next t ∧ t.up.phase = .idle ∧
        t.ds = { s.ds with ctl := .free, closing := true } ∧
        s.sameBut t [.up, .ds]) ∧
    (r.mark = .failed →
      ∃ t, exec .relayStop s = .next t ∧ t.up.phase = .idle ∧ s.sameBut t [.up]) ∧
    (∀ dev dir, r.mark = .clear →
      (s.os.part = .passthrough ∨ (s.os.part = .run ∧ s.journaledAt dev = none)) →
      ∃ t r', exec (.relayRepeatedStart dev dir) s = .next t ∧ t.up.phase = .relay r' ∧
        r' =
          { dev := dev, inRun := s.os.part == .run, mark := .clear, step := .addressSent,
            word := [], count := 0 } ∧
        t.up.dir = some dir ∧ t.up.idle = none ∧ t.usclHeld = true ∧
        t.ds = (s.follow [.repeatedStart, .address dev dir]).ds ∧
        s.sameBut t [.up, .ds]) ∧
    (∀ dev m, r.mark = .clear → s.os.part = .run → s.journaledAt dev = some m →
      (∃ t, exec (.relayRepeatedStart dev .write) s = .next t ∧
        t.ds = { (s.follow [.stop, .release]).ds with ctl := .free, closing := true } ∧
        (s.memberState m = .held ∨ 32 ≤ s.journal.length →
          t.up =
            { phase := .notAddressed, dir := some .write, idle := none, drive := [.nack] }) ∧
        (s.memberState m ≠ .held → s.journal.length < 32 →
          t.up =
            { phase := .write { member := m, word := [], dataCount := 0, mark := .clear }
              dir := some .write, idle := some s.now, drive := [.ack] } ∧
          t.reserved = true) ∧
        s.sameBut t [.up, .ds]) ∧
      ((s.slot m).isSome = true → (s.info m).hold = false →
        ∃ t, exec (.relayRepeatedStart dev .read) s = .next t ∧
          t.ds = { (s.follow [.stop, .release]).ds with ctl := .free, closing := true } ∧
          t.up = { phase := .notAddressed, dir := some .read, idle := none, drive := [.nack] } ∧
          s.sameBut t [.up, .ds]) ∧
      ((s.slot m = none ∨ (s.info m).hold = true) →
        ∃ t o, exec (.relayRepeatedStart dev .read) s = .next t ∧ t.ds.ctl = .free ∧
          t.ds.drive = (s.follow [.stop, .release]).ds.drive ∧
          t.ds.moved = (s.follow [.stop, .release]).ds.moved ∧ t.ds.closing = true ∧
          t.up.phase = .read ∧ t.up.dir = some .read ∧
          t.up.drive.head? = some .ack ∧ t.read = some o ∧ o.member = m ∧ o.buffer = none ∧
          o.recorded = false ∧ o.ended = false ∧ .issue m ∉ t.ds.waiting ∧
          s.sameBut t [.up, .read, .ds])) ∧
    (∀ dev dir, r.mark = .clear →
      s.os.part = .flush ∨ s.os.part = .haltDown ∨ s.os.part = .starting →
      ∃ t, exec (.relayRepeatedStart dev dir) s = .next t ∧
        t.up = { phase := .notAddressed, dir := some dir, idle := none, drive := [.nack] } ∧
        t.ds = { (s.follow [.stop, .release]).ds with ctl := .free, closing := true } ∧
        s.sameBut t [.up, .ds]) ∧
    (∀ dev dir, r.mark ≠ .clear →
      ∃ t, exec (.relayRepeatedStart dev dir) s = .next t ∧
        t.up =
          { phase := .relay { r with step := .hostTurn }, dir := some dir, idle := some s.now,
            drive := [.nack] } ∧
        s.sameBut t [.up]) ∧
    (∃ t p, exec .upstreamStart s = .next t ∧ t.up.phase = .relay { r with step := .restarted p } ∧
      (p = true ↔ r.step = .readShown ∨ r.step = .restarted true) ∧ t.up.idle = some s.now ∧
      s.sameBut t [.up]) ∧
    (∀ dev dir p, r.step = .restarted p →
      exec (.addressByte dev dir) s = exec (.relayRepeatedStart dev dir) s)

/-! ## The commit engine -/

/-- The runs of a page image under the RUNS policy are its maximal spans of set flags: an offset lies in
a run exactly where its flag is set, the lengths add up to the valid count, every length is at least 1,
and each run starts beyond the offset that follows the run before it. The single run of the FILL policy
spans from the lowest set offset to the highest. -/
def Obligations.RunsAreTheMaximalSpans : Prop :=
  ∀ img : PageImage,
    (∀ o, (img.byteAt o).isSome = true ↔ ∃ r ∈ img.runs, r.start ≤ o ∧ o < r.start + r.len) ∧
      (img.runs.map (·.len)).sum = img.validCount ∧ (∀ r ∈ img.runs, 1 ≤ r.len) ∧
      img.runs.Pairwise (fun a b => a.start + a.len < b.start) ∧
      ∀ lo hi, (img.byteAt lo).isSome = true → (img.byteAt hi).isSome = true →
        (∀ o, (img.byteAt o).isSome = true → lo ≤ o ∧ o ≤ hi) →
          img.span = { start := lo, len := hi - lo + 1 }

/-- A selection takes the earliest offered entry of a qualifying member: the entry becomes FILLING or
ISSUING by its member's policy, with its runs and the cursor at the first, and its one request is
raised. Every other field of the entry, and every other entry, is unchanged. At a dwell deadline the
time reaches the deadline, and a PENDING entry is eligible from then on. The time of the deadline's
event is the model's choice (log entry 2). -/
def Obligations.SelectionPlansTheEarliestEntry : Prop :=
  ∀ (s : State) (i : Nat) (e : Entry), s.inReset = false → s.journal[i]? = some e →
    (∃ t, exec (.dwellExpiry i) s = .next t ∧ t.now = max s.now e.deadline ∧
      (e.isPending = true → t.eligible e = true) ∧ s.sameBut t [.now]) ∧
    (s.selectionOpen = true → s.offered i = true → s.qualifies e.member = true →
    (∀ (j : Nat) (e' : Entry), j < i → s.journal[j]? = some e' → s.offered j = true →
      s.qualifies e'.member = false) →
      ∃ t f, exec .selection s = .next t ∧
        t.journal = s.journal.set i { e with state := .inFlight f } ∧ f.cursor = 0 ∧
        f.fillImage = none ∧ f.busyStart = none ∧ f.cycleStart = none ∧ f.due = none ∧
        ((s.info e.member).fill = false →
          f.stage = .issuing ∧ f.runs = e.image.runs ∧ .issue e.member ∈ t.ds.waiting) ∧
        ((s.info e.member).fill = true → f.runs = [e.image.span] ∧
          (e.image.span.len = e.image.validCount →
            f.stage = .issuing ∧ .issue e.member ∈ t.ds.waiting) ∧
          (e.image.span.len ≠ e.image.validCount →
            f.stage = .filling ∧ .fillRead e.member ∈ t.ds.waiting)) ∧
        s.sameBut t [.journal, .ds])

/-- The end of a fill read: a completion keeps the bytes received at the gap offsets as the fill image
and makes the issue due, raised unless a read holds it back; a refused device address within the busy
window is due again 200 µs later with the member ONLINE and the entry unchanged but for the window and
the due time; one past the window, and a NACK of the word address or of the device address (R), fail the
attempt with FILL_FAIL. The other entries keep their places. The START as the beginning of the busy
window, and its strict end, are the model's choice (log entries 5 and 15). -/
def Obligations.FillReadEndKeepsTheGapBytes : Prop :=
  ∀ (s : State) (h : Holder) (m : MemberIx) (dev : DevAddr) (word bytes : List Byte) (e : Entry)
    (f : Flight), s.inReset = false → s.ds.ctl = .busy h → h.req = .fillRead m →
    h.txn = .read dev word bytes.length → s.slotEntry m = some e → e.state = .inFlight f →
    f.stage = .filling →
      (∃ t e' f' fi, exec (.fillReadEnd (.completed bytes)) s = .next t ∧
        t.slotEntry m = some e' ∧ e' = { e with state := .inFlight f' } ∧
        f' = { f with stage := .issuing, fillImage := some fi, busyStart := none } ∧
        (∀ o, o < (s.info m).pageSize → e.image.byteAt o = none → f.currentRun.start ≤ o →
          o < f.currentRun.start + f.currentRun.len →
          PageImage.byteAt fi o = bytes[o - f.currentRun.start]?) ∧
        s.keepsOthers t m ∧ (s.readHold m = false → .issue m ∈ t.ds.waiting) ∧
        (s.readHold m = true → t.ds.waiting = s.ds.waiting) ∧ t.ds.ctl = .free ∧
        s.sameBut t [.journal, .ds]) ∧
      (s.now < f.busyStart.getD h.since + 1000 * (s.info m).cycleMs →
        ∃ t e', exec (.fillReadEnd (.nack .deviceW)) s = .next t ∧ t.slotEntry m = some e' ∧
          e' =
            { e with
              state :=
                .inFlight
                  { f with
                    busyStart := some (f.busyStart.getD h.since), due := some (s.now + 200) } } ∧
          s.keepsOthers t m ∧ t.ds.ctl = .free ∧ s.sameBut t [.journal, .ds]) ∧
      (f.busyStart.getD h.since + 1000 * (s.info m).cycleMs ≤ s.now →
        exec (.fillReadEnd (.nack .deviceW)) s =
          .next (s.endTransaction.failAttempt m .fillFail).settle) ∧
      (∀ n, n ≠ .deviceW →
        exec (.fillReadEnd (.nack n)) s =
          .next (s.endTransaction.failAttempt m .fillFail).settle)

/-- The end of an issue: with every byte acknowledged the entry is CYCLING, its member in CYCLE, the
cycle starts at the STOP and a poll is due 200 µs after it, and a fetch of the member that waits or is
due again is held for the cycle; a refused device address within the busy window is due again 200 µs
later; a NACK of a word-address or data byte, or of the device address past the window, fails the
attempt. The other entries keep their places. The START as the beginning of the busy window, and its
strict end, are the model's choice (log entries 5 and 15). -/
def Obligations.IssueEndStartsTheCycle : Prop :=
  ∀ (s : State) (h : Holder) (m : MemberIx) (e : Entry) (f : Flight), s.inReset = false →
    s.ds.ctl = .busy h → h.req = .issue m → s.slotEntry m = some e → e.state = .inFlight f →
    f.stage = .issuing → m.val < s.members.length →
      (∃ t, exec (.issueEnd .completed) s = .next t ∧ t.memberState m = .cycle ∧
        t.slotEntry m =
          some
            { e with
              state :=
                .inFlight
                  { f with
                    stage := .cycling, busyStart := none, cycleStart := some s.now,
                    due := some (s.now + 200) } } ∧
        s.keepsOthers t m ∧ (∀ k, k ≠ m → t.memberState k = s.memberState k) ∧
        t.read = s.read.map (fun o => o.onFetch m FetchState.atCycle) ∧
        (∀ x, s.fetchOf m = some x → x.state = .waitingGrant → .fetch ∉ t.ds.waiting) ∧
        ((∀ x, s.fetchOf m = some x → x.state ≠ .waitingGrant) →
          t.ds.waiting = s.ds.waiting) ∧
        t.ds.ctl = .free ∧ t.log = s.log ∧ s.sameBut t [.journal, .members, .read, .ds]) ∧
      (s.now < f.busyStart.getD h.since + 1000 * (s.info m).cycleMs →
        ∃ t, exec (.issueEnd (.nack .deviceW)) s = .next t ∧
          t.slotEntry m =
            some
              { e with
                state :=
                  .inFlight
                    { f with
                      busyStart := some (f.busyStart.getD h.since),
                      due := some (s.now + 200) } } ∧
          s.keepsOthers t m ∧ t.ds.ctl = .free ∧ s.sameBut t [.journal, .ds]) ∧
      (f.busyStart.getD h.since + 1000 * (s.info m).cycleMs ≤ s.now →
        exec (.issueEnd (.nack .deviceW)) s =
          .next (s.endTransaction.failAttempt m .issueNack).settle) ∧
      (∀ n, n ≠ .deviceW →
        exec (.issueEnd (.nack n)) s = .next (s.endTransaction.failAttempt m .writeNack).settle)

/-- A slot's due time: in CYCLING the poll is raised, in another state the refused transaction is raised
again, but for an issue that a read holds back. The due time is dropped, and the other entries keep
their places. The time of the event is the model's choice (log entry 2). -/
def Obligations.DueTimeRaisesTheRequest : Prop :=
  ∀ (s : State) (m : MemberIx) (e : Entry) (f : Flight) (due : Micros), s.inReset = false →
    s.slotEntry m = some e → e.state = .inFlight f → f.due = some due →
      (f.stage = .cycling →
        ∃ t, exec (.pollDue m) s = .next t ∧ t.now = max s.now due ∧ .poll m ∈ t.ds.waiting ∧
          t.slotEntry m = some { e with state := .inFlight { f with due := none } } ∧
          s.keepsOthers t m ∧ s.sameBut t [.now, .journal, .ds]) ∧
      (f.stage ≠ .cycling →
        ∃ t, exec (.busyRepeatDue m) s = .next t ∧ t.now = max s.now due ∧
          (f.stage ≠ .issuing ∨ s.readHold m = false → f.stage.request m ∈ t.ds.waiting) ∧
          (f.stage = .issuing → s.readHold m = true → t.ds = s.ds) ∧
          t.slotEntry m = some { e with state := .inFlight { f with due := none } } ∧
          s.keepsOthers t m ∧ s.sameBut t [.now, .journal, .ds])

/-- The end of a poll. An acknowledge returns the member to ONLINE, raises a fetch that was held for the
cycle, and moves the entry to its next run, to the verify reads, or out of the list; an open fetch
buffer of the member then takes the entry's bytes. A NACK within the timeout makes the next poll due 200
µs later, and a NACK at or past the timeout fails the attempt with CYCLE_TIMEOUT. The other entries keep
their places. The end of the poll as the time of its NACK is the model's choice (log entry 5). -/
def Obligations.PollEndMovesTheEntryOn : Prop :=
  ∀ (s : State) (h : Holder) (m : MemberIx) (e : Entry) (f : Flight) (t0 : Micros),
    s.inReset = false → s.ds.ctl = .busy h → h.req = .poll m → s.slotEntry m = some e →
    e.state = .inFlight f → f.stage = .cycling → f.cycleStart = some t0 →
    s.memberState m = .cycle →
      (f.cursor + 1 < f.runs.length →
        ∃ t, exec (.pollEnd true) s = .next t ∧ t.memberState m = .online ∧
          t.slotEntry m =
            some
              { e with
                state :=
                  .inFlight
                    { f with
                      stage := .issuing, cursor := f.cursor + 1, busyStart := none,
                      cycleStart := none, due := none } } ∧
          s.keepsOthers t m ∧ t.read = s.read.map (fun o => o.onFetch m FetchState.afterCycle) ∧
          (∀ x, s.fetchOf m = some x → x.state = .heldForCycle → .fetch ∈ t.ds.waiting) ∧
          (s.readHold m = false → .issue m ∈ t.ds.waiting) ∧ t.log = s.log ∧
          s.sameBut t [.journal, .members, .read, .ds]) ∧
      (f.runs.length ≤ f.cursor + 1 → (s.info m).verify = true →
        ∃ t, exec (.pollEnd true) s = .next t ∧ t.memberState m = .online ∧
          t.slotEntry m =
            some
              { e with
                state :=
                  .inFlight
                    { f with
                      stage := .verifying, cursor := 0, busyStart := none, cycleStart := none,
                      due := none } } ∧
          s.keepsOthers t m ∧ t.read = s.read.map (fun o => o.onFetch m FetchState.afterCycle) ∧
          (∀ x, s.fetchOf m = some x → x.state = .heldForCycle → .fetch ∈ t.ds.waiting) ∧
          .verifyRead m ∈ t.ds.waiting ∧ s.sameBut t [.journal, .members, .read, .ds]) ∧
      (f.runs.length ≤ f.cursor + 1 → (s.info m).verify = false →
        ∃ t, exec (.pollEnd true) s = .next t ∧ t.memberState m = .online ∧
          t.journal = s.journal.filter (fun x => !(x.member == m && x.isInFlight)) ∧
          t.slot m = none ∧ s.readTakes t m e FetchState.afterCycle ∧
          (∀ x, s.fetchOf m = some x → x.state = .heldForCycle → .fetch ∈ t.ds.waiting) ∧
          t.log = s.log ∧ s.sameBut t [.journal, .members, .read, .ds]) ∧
      (s.now < t0 + 1000 * (s.info m).cycleMs →
        ∃ t, exec (.pollEnd false) s = .next t ∧
          t.slotEntry m =
            some { e with state := .inFlight { f with due := some (s.now + 200) } } ∧
          s.keepsOthers t m ∧ t.memberState m = .cycle ∧ t.ds.ctl = .free ∧
          s.sameBut t [.journal, .ds]) ∧
      (t0 + 1000 * (s.info m).cycleMs ≤ s.now →
        exec (.pollEnd false) s =
          .next (s.endTransaction.failAttempt m .cycleTimeout).settle)

/-- The write-cycle timeout: with no poll of the member in progress the attempt fails with
CYCLE_TIMEOUT; with one in progress nothing changes and its outcome decides. The time of the event is
the model's choice (log entry 2). -/
def Obligations.CycleTimeoutFailsTheAttempt : Prop :=
  ∀ (s : State) (m : MemberIx) (e : Entry) (f : Flight) (t0 : Micros), s.inReset = false →
    s.slotEntry m = some e → e.state = .inFlight f → f.cycleStart = some t0 →
      (s.inProgress (.poll m) = false →
        exec (.writeCycleTimeout m) s =
          .next
            (State.failAttempt
              { s with now := max s.now (t0 + 1000 * (s.info m).cycleMs) } m
              .cycleTimeout).settle) ∧
      (s.inProgress (.poll m) = true →
        ∃ t, exec (.writeCycleTimeout m) s = .next t ∧
          t.now = max s.now (t0 + 1000 * (s.info m).cycleMs) ∧ s.sameBut t [.now])

/-- The end of a verify read: bytes that match what the attempt wrote in the run move the cursor on, or
retire the entry after the last run, when an open fetch buffer of the member takes its bytes; other
bytes fail the attempt with VERIFY_MISMATCH. A refused device address within the busy window is due
again 200 µs later; one past the window, and a NACK of the word address or of the device address (R),
fail the attempt with VERIFY_MISMATCH. The other entries keep their places. The START as the beginning
of the busy window, and its strict end, are the model's choice (log entries 5 and 15). -/
def Obligations.VerifyReadEndCompares : Prop :=
  ∀ (s : State) (h : Holder) (m : MemberIx) (dev : DevAddr) (word bytes : List Byte) (e : Entry)
    (f : Flight), s.inReset = false → s.ds.ctl = .busy h → h.req = .verifyRead m →
    h.txn = .read dev word bytes.length → s.slotEntry m = some e → e.state = .inFlight f →
    f.stage = .verifying →
      (bytes = runBytes e.image f f.currentRun → f.cursor + 1 < f.runs.length →
        ∃ t, exec (.verifyReadEnd (.completed bytes)) s = .next t ∧
          t.slotEntry m =
            some
              { e with
                state :=
                  .inFlight
                    { f with
                      cursor := f.cursor + 1, busyStart := none, cycleStart := none,
                      due := none } } ∧
          s.keepsOthers t m ∧ .verifyRead m ∈ t.ds.waiting ∧ s.sameBut t [.journal, .ds]) ∧
      (bytes = runBytes e.image f f.currentRun → f.runs.length ≤ f.cursor + 1 →
        ∃ t, exec (.verifyReadEnd (.completed bytes)) s = .next t ∧
          t.journal = s.journal.filter (fun x => !(x.member == m && x.isInFlight)) ∧
          t.slot m = none ∧ s.readTakes t m e (fun x => x) ∧ t.ds.ctl = .free ∧
          t.ds.waiting = s.ds.waiting ∧ s.sameBut t [.journal, .read, .ds]) ∧
      (bytes ≠ runBytes e.image f f.currentRun →
        exec (.verifyReadEnd (.completed bytes)) s =
          .next (s.endTransaction.failAttempt m .verifyMismatch).settle) ∧
      (s.now < f.busyStart.getD h.since + 1000 * (s.info m).cycleMs →
        ∃ t, exec (.verifyReadEnd (.nack .deviceW)) s = .next t ∧
          t.slotEntry m =
            some
              { e with
                state :=
                  .inFlight
                    { f with
                      busyStart := some (f.busyStart.getD h.since),
                      due := some (s.now + 200) } } ∧
          s.keepsOthers t m ∧ t.ds.ctl = .free ∧ s.sameBut t [.journal, .ds]) ∧
      (f.busyStart.getD h.since + 1000 * (s.info m).cycleMs ≤ s.now →
        exec (.verifyReadEnd (.nack .deviceW)) s =
          .next (s.endTransaction.failAttempt m .verifyMismatch).settle) ∧
      (∀ n, n ≠ .deviceW →
        exec (.verifyReadEnd (.nack n)) s =
          .next (s.endTransaction.failAttempt m .verifyMismatch).settle)

/-- A failed attempt raises the attempts field, writes ATTEMPT_FAILED with its cause and returns a
member in CYCLE to ONLINE. Within the retry limit the entry stays in flight, planned again from its
unchanged mask. Beyond it every entry of the member and the member become HELD, ENTRY_HELD with their
number follows, and no request of the slot waits. -/
def Obligations.FailedAttemptRetriesOrHolds : Prop :=
  ∀ (s : State) (m : MemberIx) (e : Entry) (cause : Cause), s.slotEntry m = some e →
    m.val < s.members.length →
      (e.attempts + 1 ≤ (s.info m).retryLimit →
        (s.failAttempt m cause).journal =
          s.journal.map (fun x =>
            if x.member = m ∧ x.isInFlight = true then
              { x with
                attempts := x.attempts + 1
                state := .inFlight (planFlight (s.info m) x.image) }
            else x) ∧
        (s.failAttempt m cause).memberState m =
          (if s.memberState m = .cycle then .online else s.memberState m) ∧
        (s.failAttempt m cause).log =
          pushRecord
            { stamp := s.stamp, kind := .attemptFailed, member := some m, page := some e.page,
              detail := BitVec.ofNat 8 cause.code, lost := false, read := false } s.log) ∧
      ((s.info m).retryLimit < e.attempts + 1 →
        (s.failAttempt m cause).journal =
          s.journal.map (fun x =>
            if x.member = m then
              { x with
                attempts := if x.isInFlight then x.attempts + 1 else x.attempts
                state := .held }
            else x) ∧
        (s.failAttempt m cause).memberState m = .held ∧
        (∀ k, k ≠ m → (s.failAttempt m cause).memberState k = s.memberState k) ∧
        (s.failAttempt m cause).log =
          pushRecord
            { stamp := s.stamp, kind := .entryHeld, member := some m, page := some e.page,
              detail := BitVec.ofNat 8 (s.journal.countP fun x => x.member == m), lost := false,
              read := false }
            (pushRecord
              { stamp := s.stamp, kind := .attemptFailed, member := some m,
                page := some e.page, detail := BitVec.ofNat 8 cause.code, lost := false,
                read := false } s.log) ∧
        (∀ st : Stage, st.request m ∉ (s.failAttempt m cause).ds.waiting))

/-! ## The downstream controller -/

/-- With the controller FREE, the chosen request is granted where both lines are high, and otherwise
waits in OPENING; lines that rise within 1 ms of the check give the grant, and lines that do not start
bus clear with the request still waiting. The grant takes the request out of the waiting set and makes
START; a relay sends its address byte too. An issue, a fill or verify read, a poll and a fetch run the
transactions their entry, run and fetch address give; a probe and the accesses of the descriptor run
those of their device. The holder keeps the member and page that a fault of it names. The time of the
stuck bus, lines that rise exactly 1 ms after the check counted as within it, the choice and grant as
one event, and the time of the controller's latest move are the model's choice (log entries 2, 15, 16
and 34). -/
def Obligations.GrantMakesTheStart : Prop :=
  ∀ (s : State) (r : Request), s.inReset = false →
    (s.ds.ctl = .free → s.choice = some r →
      (∃ t, exec (.arbiterChoice false) s = .next t ∧
        t.ds = { s.ds with ctl := .opening r s.now, closing := false } ∧ s.sameBut t [.ds]) ∧
      ∃ t h, exec (.arbiterChoice true) s = .next t ∧ t.ds.ctl = .busy h ∧ h.req = r ∧
        h.since = s.now ∧ h.txn = s.transaction r ∧ s.faultNamed r h ∧ t.ds.moved = s.now ∧
        t.ds.waiting = s.ds.waiting.filter (· != r) ∧ (r ≠ .relay → t.ds.drive = [.start]) ∧
        (∀ dev inRun t0, r = .relay → s.up.phase = .relayWait dev inRun t0 →
          t.up.phase =
            .relay
              { dev := dev, inRun := inRun, mark := .clear, step := .addressSent, word := [],
                count := 0 } ∧
          t.ds.drive = [.start, .address dev (s.up.dir.getD .write)]) ∧
        s.sameBut t r.touches) ∧
    (∀ t0, s.ds.ctl = .opening r t0 →
      (s.now ≤ t0 + 1000 →
        ∃ t h, exec .linesHighAtCheck s = .next t ∧ t.ds.ctl = .busy h ∧ h.req = r ∧
          h.since = s.now ∧ h.txn = s.transaction r ∧ s.faultNamed r h ∧ t.ds.moved = s.now ∧
          t.ds.waiting = s.ds.waiting.filter (· != r) ∧ s.sameBut t r.touches) ∧
      ∃ t, exec .stuckBusFound s = .next t ∧ t.now = max s.now (t0 + 1000) ∧
        t.ds =
          { s.ds with
            ctl := .clearing, drive := [.release], moved := max s.now (t0 + 1000) } ∧
        s.sameBut t [.now, .ds]) ∧
    (∀ m e f, s.slotEntry m = some e → e.state = .inFlight f →
      s.transaction (.poll m) = .addressOnly (s.info m).bus ∧
      s.transaction (.issue m) =
        .write (s.info m).bus
          ((s.info m).wordBytes (e.page * (s.info m).pageSize + f.currentRun.start))
          (runBytes e.image f f.currentRun) ∧
      s.transaction (.fillRead m) =
        .read (s.info m).bus
          ((s.info m).wordBytes (e.page * (s.info m).pageSize + f.currentRun.start))
          f.currentRun.len ∧
      s.transaction (.verifyRead m) = s.transaction (.fillRead m)) ∧
    s.transaction .relay = .relay ∧
    (∀ m, s.transaction (.probe m) = .addressOnly (s.info m).bus) ∧
    (∀ who, s.transaction (.descriptorRead who) = .read s.descriptorDev [0, 0] 64) ∧
    s.transaction .descriptorPoll = .addressOnly s.descriptorDev ∧
    (∀ image k st, s.job = some (.writeBlock image k st) →
      s.transaction .descriptorWrite =
        .write s.descriptorDev [0, BitVec.ofNat 8 (8 * k)] ((image.drop (8 * k)).take 8)) ∧
    ∀ o t0 f, s.read = some o → o.cond = .waiting t0 f →
      s.transaction .fetch =
        .read (s.info o.member).bus ((s.info o.member).wordBytes f.addr)
          (min 16 ((s.info o.member).capacity - f.addr))

/-- The arbiter's order. The chosen request waits; a commit request goes first where the starvation
counter stands at 4, and otherwise an upstream request does; a service request is chosen only where no
other can be; among commit requests polls go before reads and reads before issues, and within a class
the entry that stands earliest in the list; and among service requests the one raised first is chosen.
-/
def Obligations.ArbiterChoosesInOrder : Prop :=
  ∀ s : State,
    (∀ r, s.choice = some r →
      r ∈ s.ds.waiting ∧
      (∀ (e : Entry) (f : Flight), e ∈ s.journal → e.state = .inFlight f →
        f.stage.request e.member ∈ s.ds.waiting →
          r.isService = false ∧ (s.ds.starvation = 4 → r.isCommit = true)) ∧
      (∀ u ∈ s.ds.waiting, u.isUpstream = true →
        r.isService = false ∧ (s.ds.starvation ≠ 4 → r.isUpstream = true)) ∧
      (r.isCommit = true →
        ∃ (i : Nat) (e : Entry) (f : Flight), s.journal[i]? = some e ∧ e.state = .inFlight f ∧
          r = f.stage.request e.member ∧
          ∀ (j : Nat) (e' : Entry) (f' : Flight), s.journal[j]? = some e' →
            e'.state = .inFlight f' → f'.stage.request e'.member ∈ s.ds.waiting →
            f.stage.rank < f'.stage.rank ∨ (f.stage.rank = f'.stage.rank ∧ i ≤ j)) ∧
      (r.isService = true →
        ∃ before after, s.ds.waiting = before ++ r :: after ∧
          ∀ q ∈ before, q.isService = false)) ∧
    (∀ u ∈ s.ds.waiting, u.isCommit = false → s.choice.isSome = true)

/-- The starvation counter at each grant, by the requests waiting at the START: an upstream grant raises
it by one, to 4 at most, where a commit request waits, and sets it to 0 where none does; a commit grant
sets it to 0; a service grant leaves it. A reset and the entry to HALT_DOWN set it to 0. A choice
without a START leaves it. At 4 the next grant goes to a commit request that can be granted. Lines that
rise exactly 1 ms after the check counted as within it, and the choice with its grant as one event, are
the model's choice (log entries 15 and 16). -/
def Obligations.StarvationCounterFollowsGrants : Prop :=
  ∀ (s : State) (r : Request) (n : Nat), s.inReset = false →
    (n =
      if r.isUpstream then
        if s.ds.waiting.any Request.isCommit then min 4 (s.ds.starvation + 1) else 0
      else if r.isCommit then 0
      else s.ds.starvation) →
    (s.ds.ctl = .free → s.choice = some r →
      (∃ t, exec (.arbiterChoice true) s = .next t ∧ t.ds.starvation = n) ∧
      (∃ t, exec (.arbiterChoice false) s = .next t ∧ t.ds.starvation = s.ds.starvation) ∧
      (s.ds.starvation = 4 → s.commitChoice.isSome = true → r.isCommit = true)) ∧
    (∀ t0, s.ds.ctl = .opening r t0 →
      (s.now ≤ t0 + 1000 → ∃ t, exec .linesHighAtCheck s = .next t ∧ t.ds.starvation = n) ∧
      (∃ t, exec .stuckBusFound s = .next t ∧ t.ds.starvation = s.ds.starvation) ∧
      (s.withdraw r).ds.ctl = .free ∧ (s.withdraw r).ds.starvation = s.ds.starvation) ∧
    (∀ pulses, s.ds.ctl = .clearing → s.os.part ≠ .haltDown →
      ∃ t, exec (.busClearSclTimeout pulses) s = .next t ∧ t.os.part = .haltDown ∧
        t.ds.starvation = 0) ∧
    (∃ t, exec .powerOnReset s = .next t ∧ t.ds.starvation = 0) ∧
    (∃ t, exec .resetLineAsserted s = .next t ∧ t.ds.starvation = 0) ∧
    ∀ p o rest, s.port.tx = o :: rest → o.place = .command → s.job = some .resetArmed →
      ∃ t, exec (.responseSent p) s = .next t ∧ t.ds.starvation = 0

/-- A stretch timeout (detail 1), 25 ms after the release at which DSCL stayed low, or a collision
(detail 2) in a transaction: the lines are released with no STOP, DOWN_FAULT names the
holder's member and page, bus clear runs, and the holder is told. A commit attempt fails with
DOWN_FAULT; a waiting read enters UNDERRUN with FETCH_FAILED; a relay is marked FAILED, with NACK to a
byte whose answer was awaited and 0xFF for a read byte being clocked; an access of start-up or of a
command is due again after the bus clear; and WRITE_DESCRIPTOR ends with ACCESS_FAILED. In a relay the
controller's own hold of DSCL is no stretch, and the bits that a target sends are not compared; the slot
of its last read byte, with a START of the host after it too, and the STOPs that it sends are moves of
the controller like the rest. At the STOP that ended a relay the fault names no member and no page. The
release as a time from the beginning of the controller's move, how long a relay's last slot or STOP may
still go on, that the STOP may collide too, and that an event that is none of the state changes nothing,
are the model's choice (log entries 2, 4 and 34). -/
def Obligations.AbortReportsToTheHolder : Prop :=
  ∀ (s v : State) (c : Instr) (after : Micros) (d : Byte), s.inReset = false →
    (c = .stretchTimeout after ∧ d = 1 ∧
        v = { s with now := max s.now (s.ds.moved + after + 25000) } ∨
      c = .collision ∧ d = 2 ∧ v = s) →
    (∀ (h : Holder) (u : State), s.ds.ctl = .busy h →
      u =
        { v with
          log :=
            pushRecord
              { stamp := v.stamp, kind := .downFault, member := h.member, page := h.page,
                detail := d, lost := false, read := false } s.log
          ds := { s.ds with ctl := .clearing, drive := [.release], moved := v.now } } →
        (∀ m, h.req = .poll m ∨ h.req = .fillRead m ∨ h.req = .verifyRead m ∨ h.req = .issue m →
          exec c s = .next (u.failAttempt m .downFault).settle) ∧
        (∀ o t0 f, h.req = .fetch → s.read = some o → o.cond = .waiting t0 f →
          f.state = .inProgress →
          ∃ t, exec c s = .next t ∧
            t.read = some { o with cond := .underrun, buffer := none, recorded := true } ∧
            t.up.drive = [.byte 0xFF] ∧ t.up.idle = some v.now ∧
            t.log =
              (if o.recorded then u.log
              else
                pushRecord
                  { stamp := v.stamp, kind := .readUnderrun, member := some o.member,
                    page := some (s.pointer o.member / (s.info o.member).pageSize), detail := 2,
                    lost := false, read := false } u.log) ∧
            t.ds = u.ds ∧ v.sameBut t [.read, .up, .ds, .log]) ∧
        (∀ q, h.req = .relay → s.up.phase = .relay q → q.mark = .clear →
          (q.step = .addressSent ∨ q.step = .byteSent →
            ∃ t, exec c s = .next t ∧
              t.up =
                { s.up with
                  phase := .relay { q with mark := .failed, step := .hostTurn },
                  idle := some v.now, drive := [.nack] } ∧
              t.log = u.log ∧ t.ds = u.ds ∧ v.sameBut t [.up, .ds, .log]) ∧
          (q.step = .readDue →
            (c = .stretchTimeout after →
              ∃ t, exec c s = .next t ∧
                t.up =
                  { s.up with
                    phase := .relay { q with mark := .failed, step := .readShown },
                    idle := some v.now, drive := [.byte 0xFF] } ∧
                t.log = u.log ∧ t.ds = u.ds ∧ v.sameBut t [.up, .ds, .log]) ∧
            (c = .collision → exec c s = .next s)) ∧
          (q.step = .hostTurn ∨ q.step = .readShown ∨ q.step = .restarted true →
            exec c s = .next s) ∧
          (q.step = .readDone ∨ q.step = .restarted false →
            (c = .stretchTimeout after → s.ds.closing = true → v.moving = true →
              ∃ t, exec c s = .next t ∧ t.up.phase = .relay { q with mark := .failed } ∧
                t.log = u.log ∧ t.ds = u.ds ∧ v.sameBut t [.up, .ds, .log]) ∧
            (c = .collision ∨ s.ds.closing = false ∨ v.moving = false → exec c s = .next s))) ∧
        (∀ q, h.req = .relay → s.up.phase = .relay q → q.mark = .prot →
          (q.step = .hostTurn ∨ (∃ p, q.step = .restarted p) → s.ds.closing = true →
            v.moving = true →
            ∃ t, exec c s = .next t ∧ t.up.phase = .relay { q with mark := .failed } ∧
              t.log = u.log ∧ t.ds = u.ds ∧ v.sameBut t [.up, .ds, .log]) ∧
          (s.ds.closing = false ∨ v.moving = false → exec c s = .next s)) ∧
        (∀ a, h.req = .descriptorRead .startUp → s.os.start = some (.descriptorRead a) →
          a.asking = .inProgress →
          ∃ t, exec c s = .next t ∧
            t.os.start = some (.descriptorRead { a with asking := .afterClear }) ∧
            t.log = u.log ∧ t.ds = u.ds ∧ v.sameBut t [.os, .ds, .log]) ∧
        (∀ m a, h.req = .probe m → s.os.start = some (.probing m a) → a.asking = .inProgress →
          ∃ t, exec c s = .next t ∧
            t.os.start = some (.probing m { a with asking := .afterClear }) ∧ t.log = u.log ∧
            t.ds = u.ds ∧ v.sameBut t [.os, .ds, .log]) ∧
        (∀ k a mk, (mk = Job.readDescriptor ∨ ∃ image, mk = Job.readBack image) →
          h.req = .descriptorRead .port → s.port.cmd = some k → k.job = mk a →
          a.asking = .inProgress →
          ∃ t, exec c s = .next t ∧
            t.port =
              { s.port with cmd := some { k with job := mk { a with asking := .afterClear } } } ∧
            t.log = u.log ∧ t.ds = u.ds ∧ v.sameBut t [.port, .ds, .log]) ∧
        ∀ k image b st, h.req = .descriptorWrite ∨ h.req = .descriptorPoll → s.port.cmd = some k →
          k.job = .writeBlock image b st →
          ∃ t, exec c s = .next t ∧ t.port = s.port.ended k .refused [19] ∧ t.log = u.log ∧
            t.ds = u.ds ∧ v.sameBut t [.port, .ds, .log]) ∧
    (s.ds.ctl = .free →
      (s.ds.closing = true → s.os.part ≠ .doze → v.moving = true →
        ∃ t, exec c s = .next t ∧
          t.ds = { s.ds with ctl := .clearing, drive := [.release], moved := v.now } ∧
          t.log =
            pushRecord
              { stamp := v.stamp, kind := .downFault, member := none, page := none, detail := d,
                lost := false, read := false } s.log ∧
          v.sameBut t [.ds, .log]) ∧
      (s.ds.closing = false ∨ s.os.part = .doze ∨ v.moving = false → exec c s = .next s))

/-- A bus clear that succeeds makes the pulses needed, STOP, and frees the controller. In RUN,
PASSTHROUGH and FLUSH no record is written and the part state stays. In the start sequence's own bus
clear, and in the recovery of a halt left from it, start-up goes on to the descriptor read, or to
PASSTHROUGH for the strap. In HALT_DOWN it writes BUS_RECOVERED, and the part returns to PASSTHROUGH, to
the start sequence with its access waiting again, to the end of it where that is prepared, or to RUN or
FLUSH by the level of PFAIL, the flush episode closing where it returns to RUN. A descriptor read or a
probe whose transaction was aborted is due again 1 ms after the bus clear, provided that falls in its
window. The bus clear as one event with its pulses counted, and the strict end of the window, are the
model's choice (log entries 15 and 16). -/
def Obligations.BusClearSuccessFreesTheBus : Prop :=
  ∀ (s : State) (n : Nat), s.inReset = false → s.ds.ctl = .clearing → n ≤ 9 →
    ∃ t, exec (.busClearEnd n true) s = .next t ∧ t.ds.ctl = .free ∧
      t.ds.drive = List.replicate n .pulse ++ [.stop, .release] ∧ t.now = s.now ∧
      t.members = s.members ∧ t.read = s.read ∧ t.landing = s.landing ∧
      (s.os.part ≠ .haltDown → s.os.part ≠ .starting →
        t.os.part = s.os.part ∧ t.ds.waiting = s.ds.waiting ∧ s.sameBut t [.os, .ds, .port] ∧
        ∀ k a w mk, (mk = Job.readDescriptor ∨ ∃ image, mk = Job.readBack image) →
          s.port.cmd = some k → k.job = mk a → a.asking = .afterClear → a.window = some w →
          t.port =
            { s.port with
              cmd :=
                some
                  { k with
                    job :=
                      mk
                        { asking :=
                            if s.now + 1000 < w + 10000 then .dueAt (s.now + 1000) else .noMore
                          window := some w } } }) ∧
      (s.os.part = .starting → s.os.start ≠ some .busClear →
        t.os.part = .starting ∧ t.ds.waiting = s.ds.waiting ∧ t.log = s.log ∧
        (∀ a w, s.os.start = some (.descriptorRead a) → a.asking = .afterClear →
          a.window = some w →
          t.os.start =
            some
              (.descriptorRead
                { asking := if s.now + 1000 < w + 10000 then .dueAt (s.now + 1000) else .noMore
                  window := some w })) ∧
        ∀ m a w, s.os.start = some (.probing m a) → a.asking = .afterClear →
          a.window = some w →
          t.os.start =
            some
              (.probing m
                { asking := if s.now + 1000 < w + 10000 then .dueAt (s.now + 1000) else .noMore
                  window := some w })) ∧
      (s.os.part = .starting ∨ (s.os.part = .haltDown ∧ s.os.ret = some .starting) →
        s.os.start = some .busClear →
        (s.os.passHigh = false →
          t.os.part = .starting ∧ .descriptorRead .startUp ∈ t.ds.waiting ∧
          t.os.start = some (.descriptorRead { asking := .waiting, window := none })) ∧
        (s.os.passHigh = true →
          (s.os.msel ≠ none →
            t.os.part = .starting ∧ t.os.start = some (.leaving .passStrap)) ∧
          (s.os.msel = none → t.os.part = .passthrough ∧ t.os.cause = some .strap))) ∧
      (s.os.part = .starting → t.log = s.log) ∧
      (s.os.part = .haltDown →
        t.log =
          pushRecord
            { stamp := s.stamp, kind := .busRecovered, member := none, page := none,
              detail := 0, lost := false, read := false } s.log ∧
        (s.os.ret = some .passthrough → t.os.part = .passthrough ∧ t.drain = s.drain) ∧
        (s.os.ret = some .run ∨ s.os.ret = some .flush →
          (s.drain.pfailAsserted = true → t.os.part = .flush ∧ t.drain = s.drain) ∧
          (s.drain.pfailAsserted = false →
            t.os.part = .run ∧ t.drain = { s.drain with episode := none })) ∧
        (s.os.ret ≠ some .starting → s.sameBut t [.os, .ds, .log, .drain, .port]) ∧
        (s.os.ret = some .starting →
          (∀ a, s.os.start = some (.descriptorRead a) →
            t.os.part = .starting ∧ .descriptorRead .startUp ∈ t.ds.waiting ∧
            t.os.start = some (.descriptorRead { asking := .waiting, window := none })) ∧
          (∀ m a, s.os.start = some (.probing m a) →
            t.os.part = .starting ∧ .probe m ∈ t.ds.waiting ∧
            t.os.start = some (.probing m { asking := .waiting, window := none })) ∧
          ∀ dest, s.os.start = some (.leaving dest) →
            (s.os.msel ≠ none → t.os.part = .starting ∧ t.os.start = s.os.start) ∧
            (s.os.msel = none → t.os.start = none ∧ t.readyHigh = true ∧
              (dest = .run →
                t.os.part = (if s.drain.pfailAsserted then .flush else .run)) ∧
              (dest = .passStrap → t.os.part = .passthrough ∧ t.os.cause = some .strap) ∧
              ∀ reason, dest = .passInvalid reason →
                t.os.part = .passthrough ∧ t.os.cause = some .invalid)))

/-- A bus clear fails where nine pulses do not free DSDA, where a line is low after the STOP, and where
DSCL does not rise at step 1 or after a pulse. The part then enters HALT_DOWN: BUS_STUCK is written, no
commit request waits, every in-flight entry is PENDING, every member in CYCLE is ONLINE, a waiting read
enters UNDERRUN with its record, a waiting relay is refused, a waiting access of a command fails with
ACCESS_FAILED, one of start-up keeps its request, and what the overlay holds is unchanged. In HALT_DOWN
the halted bus waits 10 ms more. When its timer ends, bus clear runs again. The time of the failure, the
time of the retry, the pulses as an operand of the row, and the order of the records, are the model's
choice (log entries 2, 16, 20 and 34). -/
def Obligations.BusClearFailureHaltsTheBus : Prop :=
  ∀ (s : State) (c : Instr) (now' : Micros) (acts : List DownDrive), s.inReset = false →
    (s.ds.ctl = .clearing →
      ((∃ n, n ≤ 9 ∧ c = .busClearSclTimeout n ∧ now' = max s.now (s.ds.moved + 1000) ∧
          acts = List.replicate n .pulse ++ [.release]) ∨
        (∃ n, n ≤ 9 ∧ c = .busClearEnd n false ∧ now' = max s.now (s.ds.moved + 1000) ∧
          acts = List.replicate n .pulse ++ [.stop, .release]) ∨
        ∃ n high, 9 < n ∧ c = .busClearEnd n high ∧ now' = s.now ∧
          acts = List.replicate 9 .pulse ++ [.release]) →
      (s.os.part = .haltDown →
        ∃ t, exec c s = .next t ∧ t.now = now' ∧
          t.ds =
            { s.ds with ctl := .halted (now' + 10000), drive := acts, moved := now' } ∧
          s.sameBut t [.now, .ds]) ∧
      (s.os.part ≠ .haltDown →
        ∃ t log', exec c s = .next t ∧ t.now = now' ∧ t.os.part = .haltDown ∧
          t.os.ret = some s.os.part ∧ t.ds.ctl = .halted (now' + 10000) ∧
          t.ds.drive = acts ∧ t.ds.starvation = 0 ∧
          (∀ r ∈ t.ds.waiting, r.isCommit = false) ∧
          (∀ e ∈ t.journal, e.isInFlight = false) ∧
          (∀ k, t.memberState k =
            if s.memberState k = .cycle then .online else s.memberState k) ∧
          ((∀ e ∈ s.journal, (s.info e.member).strict = true) →
            t.journal =
              s.journal.map fun e => if e.isInFlight then { e with state := .pending } else e) ∧
          (s.HeldRight → (∀ m, s.Sized m) → ∀ m a, t.overlayByte m a = s.overlayByte m a) ∧
          log' =
            pushRecord
              { stamp := BitVec.ofNat 32 (now' / 1000), kind := .busStuck, member := none,
                page := none, detail := 0, lost := false, read := false } s.log ∧
          (∀ dev inRun t0, s.up.phase = .relayWait dev inRun t0 →
            t.up.phase = .notAddressed ∧ t.up.drive = [.nack] ∧ .relay ∉ t.ds.waiting) ∧
          (∀ o t0 f, s.read = some o → o.cond = .waiting t0 f →
            t.read = some { o with cond := .underrun, buffer := none, recorded := true } ∧
            .fetch ∉ t.ds.waiting ∧
            (s.up.phase = .read → t.up.drive = [.byte 0xFF] ∧ t.up.idle = some now') ∧
            t.log =
              (if o.recorded then log'
              else
                pushRecord
                  { stamp := BitVec.ofNat 32 (now' / 1000), kind := .readUnderrun,
                    member := some o.member,
                    page := some (s.pointer o.member / (s.info o.member).pageSize), detail := 2,
                    lost := false, read := false } log')) ∧
          ((∀ o t0 f, s.read = some o → o.cond ≠ .waiting t0 f) →
            t.read = s.read ∧ t.log = log') ∧
          (∀ a, s.os.start = some (.descriptorRead a) →
            (∀ due, a.asking = .dueAt due →
              t.os.start = some (.descriptorRead { asking := .dueAt due, window := none })) ∧
            ((∀ due, a.asking ≠ .dueAt due) → .descriptorRead .startUp ∈ t.ds.waiting ∧
              t.os.start = some (.descriptorRead { asking := .waiting, window := none }))) ∧
          (∀ m a, s.os.start = some (.probing m a) →
            (∀ due, a.asking = .dueAt due →
              t.os.start = some (.probing m { asking := .dueAt due, window := none })) ∧
            ((∀ due, a.asking ≠ .dueAt due) → .probe m ∈ t.ds.waiting ∧
              t.os.start = some (.probing m { asking := .waiting, window := none }))) ∧
          (∀ k, s.port.cmd = some k →
            (∀ a mk, (mk = Job.readDescriptor ∨ ∃ image, mk = Job.readBack image) →
              k.job = mk a → a.asking = .waiting ∨ a.asking = .afterClear →
              t.port = s.port.ended k .refused [19] ∧ .descriptorRead .port ∉ t.ds.waiting) ∧
            (∀ image b first, k.job = .writeBlock image b (.writing .waiting first) →
              t.port = s.port.ended k .refused [19] ∧ .descriptorWrite ∉ t.ds.waiting) ∧
            ∀ image b stopAt, k.job = .writeBlock image b (.polling .waiting stopAt) →
              t.port = s.port.ended k .refused [19] ∧ .descriptorPoll ∉ t.ds.waiting) ∧
          s.sameBut t [.now, .os, .ds, .members, .journal, .read, .up, .log, .port])) ∧
    ∀ t0, s.ds.ctl = .halted t0 →
      ∃ t, exec .haltRetryTimer s = .next t ∧ t.now = max s.now t0 ∧
        t.ds =
          { s.ds with ctl := .clearing, drive := [.release], moved := max s.now t0 } ∧
        s.sameBut t [.now, .ds]

/-! ## Drain, flush and DOZE -/

/-- A drain request, by a rising edge on DRAIN or by the command DRAIN. In RUN, FLUSH and HALT_DOWN
every entry is marked with its other fields unchanged, and DRAINED is high after it exactly where the
list is empty; the command answers OK with the number of entries. In STARTING and PASSTHROUGH it marks
nothing. In DOZE the edge wakes the part. A high sample is an edge where it follows a low one, and a
line that has stayed high makes no request. The samples as operands of the row are the model's choice
(log entry 12), and a row of the port as its whole frame too (log entry 8). -/
def Obligations.DrainRequestsMarkEveryEntry : Prop :=
  ∀ (s : State) (seq : Byte) (low fell : Bool), s.inReset = false →
    (s.drain.drainHigh = false ∨ low = true →
      (s.os.part = .run ∨ s.os.part = .flush ∨ s.os.part = .haltDown →
        ∃ t, exec (.drainRisingEdge low fell) s = .next t ∧
          t.journal = s.journal.map (fun e => { e with marked := true }) ∧
          t.drain = { s.drain with drainHigh := !fell } ∧
          (t.drainedHigh = true ↔ s.journal = []) ∧ s.sameBut t [.journal, .drain]) ∧
      (s.os.part = .starting ∨ s.os.part = .passthrough →
        ∃ t, exec (.drainRisingEdge low fell) s = .next t ∧
          t.drain = { s.drain with drainHigh := !fell } ∧ s.sameBut t [.drain]) ∧
      (s.os.part = .doze →
        ∃ t, exec (.drainRisingEdge low fell) s = .next t ∧ t.os.part = s.os.ret.getD .run ∧
          t.drain = { s.drain with drainHigh := !fell } ∧ s.sameBut t [.drain, .os])) ∧
    (s.drain.drainHigh = true → low = false →
      ∃ t, exec (.drainRisingEdge low fell) s = .next t ∧
        t.drain = { s.drain with drainHigh := !fell } ∧ s.sameBut t [.drain]) ∧
    (s.ReadyFor .drain →
      (s.os.part = .run ∨ s.os.part = .flush ∨ s.os.part = .haltDown →
        ∃ t, exec (.drain seq []) s = .next t ∧
          t.journal = s.journal.map (fun e => { e with marked := true }) ∧
          t.port = s.port.answered 0x11 seq .ok [BitVec.ofNat 8 s.journal.length] ∧
          (t.drainedHigh = true ↔ s.journal = []) ∧ s.sameBut t [.journal, .port]) ∧
      (s.os.part = .starting ∨ s.os.part = .passthrough →
        ∃ t, exec (.drain seq []) s = .next t ∧ t.port = s.port.answered 0x11 seq .ok [0] ∧
          s.sameBut t [.port]))

/-- PFAIL asserted in RUN, or in a DOZE entered from RUN, enters FLUSH: every entry is marked, an
episode opens with its budget running, and an open write takes the mark PFAIL. In a HALT_DOWN left from
RUN or FLUSH the entries are marked, an open write takes the mark, and an episode opens where none is
open. Elsewhere only the level is kept. Deasserted in FLUSH the part returns to RUN and the episode
closes. The budget's end writes FLUSH_EXPIRED with the number of PENDING and in-flight entries, where
there is one. The time of the budget's end is the model's choice (log entry 2). -/
def Obligations.FlushFollowsPfail : Prop :=
  ∀ s : State, s.inReset = false →
    (s.drain.pfailAsserted = false →
      (s.os.part = .run ∨ (s.os.part = .doze ∧ s.os.ret = some .run) →
        ∃ t, exec .pfailAssertion s = .next t ∧ t.os.part = .flush ∧
          t.journal = s.journal.map (fun e => { e with marked := true }) ∧
          t.drain =
            { s.drain with
              pfailAsserted := true
              episode := some { budget := .running, openedAt := s.now } } ∧
          (∀ w, s.up.phase = .write w →
            t.up.phase =
              .write { w with mark := if w.mark = .clear then .pfail else w.mark }) ∧
          ((∀ w, s.up.phase ≠ .write w) → t.up = s.up) ∧
          s.sameBut t [.os, .journal, .drain, .up]) ∧
      (s.os.part = .haltDown → s.os.ret = some .run ∨ s.os.ret = some .flush →
        ∃ t, exec .pfailAssertion s = .next t ∧
          t.journal = s.journal.map (fun e => { e with marked := true }) ∧
          t.drain =
            { s.drain with
              pfailAsserted := true
              episode :=
                some (s.drain.episode.getD { budget := .running, openedAt := s.now }) } ∧
          (∀ w, s.up.phase = .write w →
            t.up =
              { s.up with
                phase :=
                  .write { w with mark := if w.mark = .clear then .pfail else w.mark } }) ∧
          ((∀ w, s.up.phase ≠ .write w) → t.up = s.up) ∧
          s.sameBut t [.journal, .drain, .up]) ∧
      (s.os.part = .starting ∨ s.os.part = .passthrough ∨
          (s.os.part = .haltDown ∧ s.os.ret ≠ some .run ∧ s.os.ret ≠ some .flush) ∨
          (s.os.part = .doze ∧ s.os.ret = some .passthrough) →
        ∃ t, exec .pfailAssertion s = .next t ∧
          t.drain = { s.drain with pfailAsserted := true } ∧ s.sameBut t [.drain])) ∧
    (s.drain.pfailAsserted = true →
      (s.os.part = .flush →
        ∃ t, exec .pfailDeassertion s = .next t ∧ t.os.part = .run ∧
          t.drain = { s.drain with pfailAsserted := false, episode := none } ∧
          s.sameBut t [.os, .drain]) ∧
      (s.os.part ≠ .flush →
        ∃ t, exec .pfailDeassertion s = .next t ∧
          t.drain = { s.drain with pfailAsserted := false } ∧ s.sameBut t [.drain])) ∧
    ∀ t0, s.drain.episode = some { budget := .running, openedAt := t0 } →
      ∃ t, exec .flushExpired s = .next t ∧
        t.now = max s.now (t0 + 1000 * ((s.os.globals.map (·.budgetMs)).getD 0)) ∧
        t.drain = { s.drain with episode := some { budget := .expired, openedAt := t0 } } ∧
        t.log =
          (if s.unfinished = 0 then s.log
          else
            pushRecord
              { stamp := BitVec.ofNat 32 (t.now / 1000), kind := .flushExpired, member := none,
                page := none, detail := BitVec.ofNat 8 s.unfinished, lost := false,
                read := false } s.log) ∧
        s.sameBut t [.now, .drain, .log]

/-- When the quiesce timer reaches the quiesce time the part enters DOZE and keeps the state it came
from. With the port open, the start bit of a byte wakes it to that state. The time of the event is the
model's choice (log entry 2). -/
def Obligations.QuiesceEntersDoze : Prop :=
  ∀ s : State, s.inReset = false →
    (∀ t0, s.os.quiesce = some t0 →
      ∃ t, exec .quiesceExpiry s = .next t ∧
        t.now = max s.now (t0 + 1000 * ((s.os.globals.map (·.quiesceMs)).getD 0)) ∧
        t.os = { s.os with part := .doze, ret := some s.os.part, quiesce := none } ∧
        s.sameBut t [.now, .os]) ∧
    (s.os.part = .doze → s.port.rx ≠ .stopped →
      ∃ t, exec .mrxStartBit s = .next t ∧ t.os.part = s.os.ret.getD .run ∧ t.os.ret = none ∧
        t.os.mode = s.os.mode ∧ s.sameBut t [.os])

/-! ## The maintenance port -/

/-- The receiver. In HUNT the sync byte with its stop bit high begins a frame and every other byte is
dropped. In a frame a byte with its stop bit low, a length above 72 and a CRC that does not match return
it to HUNT with no response; the other bytes join the frame; and the byte that matches the CRC gives the
frame to its decoding. A gap of 20 ms discards the frame. The time of the gap's end, the rows of the
port as whole frames, and UNKNOWN_COMMAND with a known code decoded as that command, are the model's
choice (log entries 2, 8 and 9). -/
def Obligations.FramesAreReceivedByteByByte : Prop :=
  ∀ (s : State) (b : Byte), s.inReset = false → s.os.part ≠ .doze →
    (s.port.rx = .hunt →
      (∃ t, exec (.mrxByte 0xA5 true) s = .next t ∧
        t.port = { s.port with rx := .frame [] s.now } ∧ s.sameBut t [.port]) ∧
      ∀ stop, stop = false ∨ b ≠ 0xA5 →
        ∃ t, exec (.mrxByte b stop) s = .next t ∧ s.sameBut t []) ∧
    ∀ bytes t0, s.port.rx = .frame bytes t0 →
      (∃ t, exec (.mrxByte b false) s = .next t ∧ t.port = { s.port with rx := .hunt } ∧
        s.sameBut t [.port]) ∧
      (bytes.length < 2 ∨ (bytes.length = 2 ∧ b.toNat ≤ 72) ∨
          (3 ≤ bytes.length ∧ bytes.length < 3 + (bytes.getD 2 0).toNat) →
        ∃ t, exec (.mrxByte b true) s = .next t ∧
          t.port = { s.port with rx := .frame (bytes ++ [b]) s.now } ∧ s.sameBut t [.port]) ∧
      (bytes.length = 2 ∧ 72 < b.toNat ∨
          (3 ≤ bytes.length ∧ bytes.length = 3 + (bytes.getD 2 0).toNat ∧ crc8 bytes ≠ b) →
        ∃ t, exec (.mrxByte b true) s = .next t ∧ t.port = { s.port with rx := .hunt } ∧
          s.sameBut t [.port]) ∧
      (∀ code seq len payload, bytes = code :: seq :: len :: payload →
        payload.length = len.toNat → payload.length ≤ 72 →
        (∀ c : Cmd, code = c.code →
          exec (.mrxByte (crc8 bytes) true) s = exec (c.row seq payload) s) ∧
        exec (.mrxByte (crc8 bytes) true) s = exec (.unknownCommand code seq payload) s) ∧
      ∃ t, exec .frameGapTimeout s = .next t ∧ t.now = max s.now (t0 + 20000) ∧
        t.port = { s.port with rx := .hunt } ∧ s.sameBut t [.now, .port]

/-- The checks of decoding in their order. With a command in progress BUSY goes into the busy place, or
nothing is answered where that is taken; then the command value, the mode and the length are tested, and
each failure is answered with its status and changes nothing else. In DOZE a frame is taken as in the
state that the part wakes to, and with the receiver STOPPED none is received. A row as its whole frame
is the model's choice (log entry 8). -/
def Obligations.FramesAreDecodedInOrder : Prop :=
  ∀ (s : State) (c : Cmd) (code seq : Byte) (payload : List Byte), s.inReset = false →
    payload.length ≤ 72 →
    (s.port.rx = .stopped → exec (c.row seq payload) s = .next s) ∧
    (s.port.rx ≠ .stopped → s.os.part = .doze → s.os.ret ≠ some .doze →
      exec (c.row seq payload) s = exec (c.row seq payload) s.wake) ∧
    (s.port.rx ≠ .stopped → s.os.part ≠ .doze →
      (∀ k, s.port.cmd = some k →
        (s.port.busyPlaceFull = false →
          ∃ t, exec (c.row seq payload) s = .next t ∧
            t.port =
              { s.port with
                rx := .hunt
                tx := s.port.tx ++
                  [{ place := .busy
                     response :=
                       { code := c.code, seq := seq, status := .busy, payload := [] } }] } ∧
            s.sameBut t [.port]) ∧
        (s.port.busyPlaceFull = true →
          ∃ t, exec (c.row seq payload) s = .next t ∧ t.port = { s.port with rx := .hunt } ∧
            s.sameBut t [.port])) ∧
      (s.port.cmd = none →
        (code ∉ commandCodes →
          ∃ t, exec (.unknownCommand code seq payload) s = .next t ∧
            t.port = s.port.answered code seq .unknownCommand [] ∧ s.sameBut t [.port]) ∧
        (s.os.mode = .monitor → c.inMonitor = false →
          ∃ t, exec (c.row seq payload) s = .next t ∧
            t.port = s.port.answered c.code seq .notPermitted [] ∧ s.sameBut t [.port]) ∧
        (s.ReadyFor c → payload.length ≠ c.requestLength →
          ∃ t, exec (c.row seq payload) s = .next t ∧
            t.port = s.port.answered c.code seq .badLength [] ∧ s.sameBut t [.port])))

/-- The commands that report. STATUS answers its 23 bytes; READ_ENTRY the entry at a position, or
BAD_ARGUMENT beyond the list; READ_FAULTS the four oldest unread records at most, which are marked read;
CLEAR_FAULTS empties the ring and ends the unread condition of ALERT. A row as its whole frame is the
model's choice (log entry 8). -/
def Obligations.ReportingCommandsAnswer : Prop :=
  ∀ (s : State) (seq b : Byte),
    (s.ReadyFor .status →
      ∃ t, exec (.status seq []) s = .next t ∧
        t.port =
          s.port.answered 0x01 seq .ok
            ([s.os.part.code, BitVec.ofNat 8 s.journal.length,
              BitVec.ofNat 8 (s.journal.countP Entry.isPending),
              BitVec.ofNat 8 (s.journal.countP (Entry.atStage .filling)),
              BitVec.ofNat 8 (s.journal.countP (Entry.atStage .issuing)),
              BitVec.ofNat 8 (s.journal.countP (Entry.atStage .cycling)),
              BitVec.ofNat 8 (s.journal.countP (Entry.atStage .verifying)),
              BitVec.ofNat 8 (s.journal.countP Entry.isHeld)] ++
              (List.range 8).map (fun i =>
                ((s.members[i]?).map (fun m => m.state.code)).getD 0xFF) ++
              [if s.journal.all (fun e => !e.marked) then 1 else 0, BitVec.ofNat 8 s.unread,
                s.os.mode.code] ++
              littleEndian 4 s.stamp.toNat) ∧
        s.sameBut t [.port]) ∧
    (s.ReadyFor .readEntry →
      (∀ e, s.journal[b.toNat]? = some e →
        ∃ t, exec (.readEntry seq [b]) s = .next t ∧
          t.port =
            s.port.answered 0x02 seq .ok (entryPayload (s.info e.member).pageSize e) ∧
          s.sameBut t [.port]) ∧
      (s.journal.length ≤ b.toNat →
        ∃ t, exec (.readEntry seq [b]) s = .next t ∧
          t.port = s.port.answered 0x02 seq .badArgument [] ∧ s.sameBut t [.port])) ∧
    (s.ReadyFor .readFaults →
      ∃ t, exec (.readFaults seq []) s = .next t ∧
        t.port =
          s.port.answered 0x03 seq .ok
            (((s.log.filter fun r => !r.read).take 4).flatMap FaultRecord.bytes) ∧
        t.log =
          s.log.mapIdx (fun i r =>
            if r.read = false ∧ (s.log.take i).countP (fun q => !q.read) < 4 then
              { r with read := true }
            else r) ∧
        s.sameBut t [.log, .port]) ∧
    (s.ReadyFor .clearFaults →
      ∃ t, exec (.clearFaults seq []) s = .next t ∧ t.log = [] ∧ t.unread = 0 ∧
        t.port = s.port.answered 0x10 seq .ok [] ∧
        t.alertLow = (s.anyHeld || s.os.part == .haltDown || s.invalidAlert) ∧
        s.sameBut t [.log, .port])

/-- MEMBER_RETRY and MEMBER_DISCARD of a HELD member. Either makes the member ONLINE. The first returns
its entries to PENDING with no attempt counted and keeps what every read of it finds in the journal; of
a strict member each entry stays, and of a loose one each page keeps one, marked where one of its
entries was, with the latest of their deadlines. The second frees them and answers with their number. A
member that is not HELD is answered NOT_HELD and an index above 7 BAD_ARGUMENT, with nothing else
changed. A row as its whole frame is the model's choice (log entry 8). -/
def Obligations.HeldMembersAreRetriedOrDiscarded : Prop :=
  ∀ (s : State) (seq b : Byte) (m : MemberIx),
    (s.ReadyFor .memberRetry →
      (7 < b.toNat →
        ∃ t, exec (.memberRetry seq [b]) s = .next t ∧
          t.port = s.port.answered 0x12 seq .badArgument [] ∧ s.sameBut t [.port]) ∧
      (b.toNat = m.val → s.memberState m ≠ .held →
        ∃ t, exec (.memberRetry seq [b]) s = .next t ∧
          t.port = s.port.answered 0x12 seq .refused [18] ∧ s.sameBut t [.port]) ∧
      (b.toNat = m.val → s.memberState m = .held →
        ∃ t, exec (.memberRetry seq [b]) s = .next t ∧
          t.port = s.port.answered 0x12 seq .ok [] ∧ t.memberState m = .online ∧
          (∀ k, k ≠ m → t.memberState k = s.memberState k) ∧
          (∀ e ∈ t.journal, e.member = m → e.state = .pending ∧ e.attempts = 0) ∧
          t.journal.filter (fun e => e.member != m) =
            s.journal.filter (fun e => e.member != m) ∧
          ((s.info m).strict = true →
            t.journal =
              s.journal.map fun e =>
                if e.member = m then { e with state := .pending, attempts := 0 } else e) ∧
          ((s.info m).strict = false →
            (t.journal.Pairwise fun x y =>
              ¬(x.member = m ∧ y.member = m ∧ x.page = y.page)) ∧
            (∀ x ∈ s.journal, x.member = m →
              ∃ e ∈ t.journal, e.member = m ∧ e.page = x.page) ∧
            ∀ e ∈ t.journal, e.member = m →
              (e.marked = true ↔
                ∃ x ∈ s.journal, x.member = m ∧ x.page = e.page ∧ x.marked = true) ∧
              (∀ x ∈ s.journal, x.member = m → x.page = e.page → x.deadline ≤ e.deadline) ∧
              ∃ x ∈ s.journal, x.member = m ∧ x.page = e.page ∧ x.deadline = e.deadline) ∧
          (s.Sized m → ∀ k a, t.overlayByte k a = s.overlayByte k a) ∧
          s.sameBut t [.members, .journal, .port])) ∧
    (s.ReadyFor .memberDiscard →
      (7 < b.toNat →
        ∃ t, exec (.memberDiscard seq [b]) s = .next t ∧
          t.port = s.port.answered 0x13 seq .badArgument [] ∧ s.sameBut t [.port]) ∧
      (b.toNat = m.val → s.memberState m ≠ .held →
        ∃ t, exec (.memberDiscard seq [b]) s = .next t ∧
          t.port = s.port.answered 0x13 seq .refused [18] ∧ s.sameBut t [.port]) ∧
      (b.toNat = m.val → s.memberState m = .held →
        ∃ t, exec (.memberDiscard seq [b]) s = .next t ∧
          t.port =
            s.port.answered 0x13 seq .ok
              [BitVec.ofNat 8 (s.journal.countP fun e => e.member == m)] ∧
          t.memberState m = .online ∧ (∀ k, k ≠ m → t.memberState k = s.memberState k) ∧
          t.journal = s.journal.filter (fun e => e.member != m) ∧
          s.sameBut t [.members, .journal, .port]))

/-- READ_DESCRIPTOR and WRITE_DESCRIPTOR at their decoding, and their steps. A read is refused in
HALT_DOWN and STARTING, and requested elsewhere. An image is validated first, then the journal and the
part state are tested, and then its first block is requested. The end of a block's write makes its poll
due 200 µs later; an acknowledged poll requests the next block, and after the last the read-back; a
refused device address is due again 200 µs later within 31 ms; another NACK, or one past that, ends the
command with ACCESS_FAILED. In a descriptor read, of READ_DESCRIPTOR or of the read-back, a refused
device address is due again 1 ms later within the 10 ms window; another NACK, or the end of the window,
ends the command with ACCESS_FAILED. Each due time makes its request, and in HALT_DOWN ends the command
so. The times of the due events, the START as a window's beginning, a row as its whole frame, the limits
as inclusive or strict, and that the end of a window decides at once, are the model's choice (log
entries 2, 5, 8, 15 and 17). -/
def Obligations.DescriptorCommandsRunTheirSteps : Prop :=
  ∀ (s : State) (seq : Byte) (image : List Byte),
    (s.ReadyFor .readDescriptor →
      (s.os.part = .haltDown →
        ∃ t, exec (.readDescriptor seq []) s = .next t ∧
          t.port = s.port.answered 0x04 seq .refused [19] ∧ s.sameBut t [.port]) ∧
      (s.os.part = .starting →
        ∃ t, exec (.readDescriptor seq []) s = .next t ∧
          t.port = s.port.answered 0x04 seq .refused [17] ∧ s.sameBut t [.port]) ∧
      (s.os.part ≠ .haltDown → s.os.part ≠ .starting →
        ∃ t, exec (.readDescriptor seq []) s = .next t ∧
          t.port =
            s.port.started 0x04 seq (.readDescriptor { asking := .waiting, window := none }) ∧
          .descriptorRead .port ∈ t.ds.waiting ∧ s.sameBut t [.port, .ds])) ∧
    (s.ReadyFor .writeDescriptor → image.length = 64 →
      (∀ reason, validate s.os.ads image = some reason →
        ∃ t, exec (.writeDescriptor seq image) s = .next t ∧
          t.port = s.port.answered 0x14 seq .refused [BitVec.ofNat 8 reason] ∧
          s.sameBut t [.port]) ∧
      (validate s.os.ads image = none → s.journal ≠ [] →
        ∃ t, exec (.writeDescriptor seq image) s = .next t ∧
          t.port = s.port.answered 0x14 seq .refused [16] ∧ s.sameBut t [.port]) ∧
      (validate s.os.ads image = none → s.journal = [] → s.os.part ≠ .run →
        s.os.part ≠ .passthrough →
        ∃ t, exec (.writeDescriptor seq image) s = .next t ∧
          t.port = s.port.answered 0x14 seq .refused [17] ∧ s.sameBut t [.port]) ∧
      (validate s.os.ads image = none → s.journal = [] →
        s.os.part = .run ∨ s.os.part = .passthrough →
        ∃ t, exec (.writeDescriptor seq image) s = .next t ∧
          t.port = s.port.started 0x14 seq (.writeBlock image 0 (.writing .waiting none)) ∧
          .descriptorWrite ∈ t.ds.waiting ∧ s.sameBut t [.port, .ds])) ∧
    (s.inReset = false → ∀ (k : Command) (n : Nat) (h : Holder), s.port.cmd = some k →
      (∀ first, k.job = .writeBlock image n (.writing .inProgress (some first)) →
        s.ds.ctl = .busy h → h.req = .descriptorWrite →
        (∃ t, exec (.descriptorWriteEnd .completed) s = .next t ∧
          t.port =
            { s.port with
              cmd :=
                some
                  { k with
                    job := .writeBlock image n (.polling (.dueAt (s.now + 200)) s.now) } } ∧
          t.ds.ctl = .free ∧ s.sameBut t [.port, .ds]) ∧
        (s.now + 200 ≤ first + 31000 →
          ∃ t, exec (.descriptorWriteEnd (.nack .deviceW)) s = .next t ∧
            t.port =
              { s.port with
                cmd :=
                  some
                    { k with
                      job :=
                        .writeBlock image n
                          (.writing (.dueAt (s.now + 200)) (some first)) } } ∧
            t.ds.ctl = .free ∧ s.sameBut t [.port, .ds]) ∧
        ∀ b, b ≠ .deviceW ∨ first + 31000 < s.now + 200 →
          ∃ t, exec (.descriptorWriteEnd (.nack b)) s = .next t ∧
            t.port = s.port.ended k .refused [19] ∧ t.ds.ctl = .free ∧
            s.sameBut t [.port, .ds]) ∧
      (∀ stopAt, k.job = .writeBlock image n (.polling .inProgress stopAt) →
        s.ds.ctl = .busy h → h.req = .descriptorPoll →
        (n < 7 →
          ∃ t, exec (.descriptorWritePollEnd true) s = .next t ∧
            t.port =
              { s.port with
                cmd :=
                  some { k with job := .writeBlock image (n + 1) (.writing .waiting none) } } ∧
            .descriptorWrite ∈ t.ds.waiting ∧ s.sameBut t [.port, .ds]) ∧
        (7 ≤ n →
          ∃ t, exec (.descriptorWritePollEnd true) s = .next t ∧
            t.port =
              { s.port with
                cmd :=
                  some
                    { k with
                      job := .readBack image { asking := .waiting, window := none } } } ∧
            .descriptorRead .port ∈ t.ds.waiting ∧ s.sameBut t [.port, .ds]) ∧
        (s.now + 200 ≤ stopAt + 31000 →
          ∃ t, exec (.descriptorWritePollEnd false) s = .next t ∧
            t.port =
              { s.port with
                cmd :=
                  some
                    { k with
                      job := .writeBlock image n (.polling (.dueAt (s.now + 200)) stopAt) } } ∧
            s.sameBut t [.port, .ds]) ∧
        (stopAt + 31000 < s.now + 200 →
          ∃ t, exec (.descriptorWritePollEnd false) s = .next t ∧
            t.port = s.port.ended k .refused [19] ∧ s.sameBut t [.port, .ds])) ∧
      (∀ due first, k.job = .writeBlock image n (.writing (.dueAt due) first) →
        ∃ t, exec .descriptorWriteRetryDue s = .next t ∧ t.now = max s.now due ∧
          (s.os.part ≠ .haltDown →
            t.port.cmd = some { k with job := .writeBlock image n (.writing .waiting first) } ∧
            .descriptorWrite ∈ t.ds.waiting) ∧
          (s.os.part = .haltDown → t.port = s.port.ended k .refused [19]) ∧
          s.sameBut t [.now, .port, .ds]) ∧
      (∀ due stopAt, k.job = .writeBlock image n (.polling (.dueAt due) stopAt) →
        ∃ t, exec .descriptorWritePollDue s = .next t ∧ t.now = max s.now due ∧
          (s.os.part ≠ .haltDown →
            t.port.cmd =
              some { k with job := .writeBlock image n (.polling .waiting stopAt) } ∧
            .descriptorPoll ∈ t.ds.waiting) ∧
          (s.os.part = .haltDown → t.port = s.port.ended k .refused [19]) ∧
          s.sameBut t [.now, .port, .ds]) ∧
      (∀ a w mk, (mk = Job.readDescriptor ∨ ∃ written, mk = Job.readBack written) →
        k.job = mk a → a.window = some w →
        (a.asking = .inProgress → s.ds.ctl = .busy h → h.req = .descriptorRead .port →
          (∃ t, exec (.descriptorReadEnd (.nack .deviceW)) s = .next t ∧
            t.port =
              { s.port with
                cmd :=
                  some
                    { k with
                      job :=
                        mk
                          { asking :=
                              if s.now + 1000 < w + 10000 then .dueAt (s.now + 1000) else .noMore
                            window := some w } } } ∧
            t.ds.ctl = .free ∧ s.sameBut t [.port, .ds]) ∧
          ∀ b, b ≠ .deviceW →
            ∃ t, exec (.descriptorReadEnd (.nack b)) s = .next t ∧
              t.port = s.port.ended k .refused [19] ∧ t.ds.ctl = .free ∧
              s.sameBut t [.port, .ds]) ∧
        ((∀ b, s.os.start ≠ some (.descriptorRead b)) →
          (∀ due, a.asking = .dueAt due →
            ∃ t, exec .descriptorReadRetryDue s = .next t ∧ t.now = max s.now due ∧
              (s.os.part ≠ .haltDown → max s.now due < w + 10000 →
                t.port =
                  { s.port with
                    cmd :=
                      some { k with job := mk { asking := .waiting, window := some w } } } ∧
                .descriptorRead .port ∈ t.ds.waiting) ∧
              (s.os.part = .haltDown → t.port = s.port.ended k .refused [19]) ∧
              s.sameBut t [.now, .port, .ds]) ∧
          ∃ t, exec .answerWindowEnd s = .next t ∧ t.now = max s.now (w + 10000) ∧
            t.port = s.port.ended k .refused [19] ∧ .descriptorRead .port ∉ t.ds.waiting ∧
            s.sameBut t [.now, .port, .ds])) ∧
      ∀ dev word a, s.ds.ctl = .busy h → h.req = .descriptorRead .port →
        h.txn = .read dev word image.length → a.asking = .inProgress →
        (k.job = .readDescriptor a →
          ∃ t, exec (.descriptorReadEnd (.completed image)) s = .next t ∧
            t.port = s.port.ended k .ok image ∧ t.ds.ctl = .free ∧ s.sameBut t [.port, .ds]) ∧
        ∀ written, k.job = .readBack written a →
          ∃ t, exec (.descriptorReadEnd (.completed image)) s = .next t ∧
            t.port =
              (if image = written then s.port.ended k .ok []
              else s.port.ended k .refused [20]) ∧
            t.ds.ctl = .free ∧ s.sameBut t [.port, .ds])

/-- The commands that change the part state. RELOAD and LEAVE_PASSTHROUGH start the reload in RUN and
PASSTHROUGH with the journal empty; ENTER_PASSTHROUGH enters PASSTHROUGH from RUN with the journal
empty; either waits while an upstream transaction is open and is made at DEFERRED_CHANGE. SOFT_RESET is
accepted where the journal is empty or FORCE is given, and waits for its response. What does not allow
the command is answered WRONG_STATE, JOURNAL_NOT_EMPTY or BAD_ARGUMENT. A row as its whole frame, and a
change made at once where nothing waits, are the model's choice (log entries 8 and 18). -/
def Obligations.PartChangesByCommand : Prop :=
  ∀ (s : State) (seq flags : Byte) (c : Cmd),
    (s.ReadyFor c → c = .reload ∨ c = .leavePassthrough →
      (s.os.part = .run ∨ s.os.part = .passthrough →
        (s.upstreamOpen = true →
          ∃ t, exec (c.row seq []) s = .next t ∧
            t.port = s.port.started c.code seq .reloadWaiting ∧ s.sameBut t [.port]) ∧
        (s.upstreamOpen = false → s.journal ≠ [] →
          ∃ t, exec (c.row seq []) s = .next t ∧
            t.port = s.port.answered c.code seq .refused [16] ∧ s.sameBut t [.port]) ∧
        (s.upstreamOpen = false → s.journal = [] →
          ∃ t, exec (c.row seq []) s = .next t ∧
            t.port = s.port.started c.code seq .reloading ∧ t.os.part = .starting ∧
            t.members = [] ∧ t.os.globals = none ∧ t.os.mode = s.os.mode ∧
            t.os.start = some (.descriptorRead { asking := .waiting, window := none }) ∧
            .descriptorRead .startUp ∈ t.ds.waiting ∧
            s.sameBut t [.members, .os, .ds, .port])) ∧
      (s.os.part ≠ .run → s.os.part ≠ .passthrough →
        ∃ t, exec (c.row seq []) s = .next t ∧
          t.port = s.port.answered c.code seq .refused [17] ∧ s.sameBut t [.port])) ∧
    (s.ReadyFor .enterPassthrough →
      (s.os.part = .run →
        (s.upstreamOpen = true →
          ∃ t, exec (.enterPassthrough seq []) s = .next t ∧
            t.port = s.port.started 0x17 seq .passWaiting ∧ s.sameBut t [.port]) ∧
        (s.upstreamOpen = false → s.journal ≠ [] →
          ∃ t, exec (.enterPassthrough seq []) s = .next t ∧
            t.port = s.port.answered 0x17 seq .refused [16] ∧ s.sameBut t [.port]) ∧
        (s.upstreamOpen = false → s.journal = [] →
          ∃ t, exec (.enterPassthrough seq []) s = .next t ∧
            t.port = s.port.answered 0x17 seq .ok [] ∧ t.os.part = .passthrough ∧
            t.os.cause = some .request ∧ (∀ m, t.memberState m = .unset) ∧
            (∀ m, t.pointer m = s.pointer m) ∧ s.sameBut t [.members, .os, .port])) ∧
      (s.os.part ≠ .run →
        ∃ t, exec (.enterPassthrough seq []) s = .next t ∧
          t.port = s.port.answered 0x17 seq .refused [17] ∧ s.sameBut t [.port])) ∧
    (∀ k, s.inReset = false → s.upstreamOpen = false → s.port.cmd = some k →
      (k.job = .reloadWaiting → s.journal = [] → s.os.part = .run ∨ s.os.part = .passthrough →
        ∃ t, exec .deferredChange s = .next t ∧
          t.port = { s.port with cmd := some { k with job := .reloading } } ∧
          t.os.part = .starting ∧ t.members = [] ∧ t.os.globals = none ∧
          .descriptorRead .startUp ∈ t.ds.waiting ∧ s.sameBut t [.members, .os, .ds, .port]) ∧
      (k.job = .passWaiting → s.journal = [] → s.os.part = .run →
        ∃ t, exec .deferredChange s = .next t ∧ t.port = s.port.ended k .ok [] ∧
          t.os.part = .passthrough ∧ t.os.cause = some .request ∧
          (∀ m, t.memberState m = .unset) ∧ s.sameBut t [.members, .os, .port]) ∧
      (k.job = .reloadWaiting ∨ k.job = .passWaiting → s.os.part = .run → s.journal ≠ [] →
        ∃ t, exec .deferredChange s = .next t ∧ t.port = s.port.ended k .refused [16] ∧
          s.sameBut t [.port]) ∧
      (k.job = .reloadWaiting ∨ k.job = .passWaiting → s.os.part ≠ .run →
        s.os.part ≠ .passthrough →
        ∃ t, exec .deferredChange s = .next t ∧ t.port = s.port.ended k .refused [17] ∧
          s.sameBut t [.port])) ∧
    (s.ReadyFor .softReset →
      (1 < flags.toNat →
        ∃ t, exec (.softReset seq [flags]) s = .next t ∧
          t.port = s.port.answered 0x18 seq .badArgument [] ∧ s.sameBut t [.port]) ∧
      (flags = 0 → s.journal ≠ [] →
        ∃ t, exec (.softReset seq [flags]) s = .next t ∧
          t.port = s.port.answered 0x18 seq .refused [16] ∧ s.sameBut t [.port]) ∧
      (flags = 1 ∨ (flags = 0 ∧ s.journal = []) →
        ∃ t, exec (.softReset seq [flags]) s = .next t ∧
          t.port =
            { s.port.answered 0x18 seq .ok [] with
              cmd := some { code := 0x18, seq := seq, job := .resetArmed } } ∧
          s.sameBut t [.port]))
end

