-- ==== Sys2Proof/Laws/State.lean ====
section
/-! SUPPORT. The field lemmas of the state updates: for each update, what each field holds after it. All
are true by unfolding, so no later proof unfolds an update. -/

namespace Sys2Proof.Machine

variable (s : State)

/-! ### settle: An event is taken (R174). -/

@[simp] theorem State.settle_pending : (s.settle).pending = s.pending := rfl

@[simp] theorem State.settle_now : (s.settle).now = s.now := rfl

@[simp] theorem State.settle_inReset : (s.settle).inReset = s.inReset := rfl

@[simp] theorem State.settle_os_part : (s.settle).os.part = s.os.part := rfl

@[simp] theorem State.settle_os_ret : (s.settle).os.ret = s.os.ret := rfl

@[simp] theorem State.settle_os_cause : (s.settle).os.cause = s.os.cause := rfl

@[simp] theorem State.settle_os_ads : (s.settle).os.ads = s.os.ads := rfl

@[simp] theorem State.settle_os_passHigh : (s.settle).os.passHigh = s.os.passHigh := rfl

@[simp] theorem State.settle_os_mode : (s.settle).os.mode = s.os.mode := rfl

@[simp] theorem State.settle_os_globals : (s.settle).os.globals = s.os.globals := rfl

@[simp] theorem State.settle_os_start : (s.settle).os.start = s.os.start := rfl

@[simp] theorem State.settle_os_quiesce :
    (s.settle).os.quiesce = if s.quiet then some (s.os.quiesce.getD s.now) else none := rfl

@[simp] theorem State.settle_os_everLeft : (s.settle).os.everLeft = s.os.everLeft := rfl

@[simp] theorem State.settle_os_msel : (s.settle).os.msel = s.os.msel := rfl

@[simp] theorem State.settle_os_mselHigh : (s.settle).os.mselHigh = s.os.mselHigh := rfl

@[simp] theorem State.settle_drain : (s.settle).drain = s.drain := rfl

@[simp] theorem State.settle_members : (s.settle).members = s.members := rfl

@[simp] theorem State.settle_journal : (s.settle).journal = s.journal := rfl

@[simp] theorem State.settle_read : (s.settle).read = s.read := rfl

@[simp] theorem State.settle_up : (s.settle).up = s.up := rfl

@[simp] theorem State.settle_landing : (s.settle).landing = s.landing := rfl

@[simp] theorem State.settle_ds : (s.settle).ds = s.ds := rfl

@[simp] theorem State.settle_log : (s.settle).log = s.log := rfl

@[simp] theorem State.settle_port : (s.settle).port = s.port := rfl

/-! ### advanceTo: A timed event. -/

@[simp] theorem State.advanceTo_pending (t : Micros) : (s.advanceTo t).pending = s.pending := rfl

@[simp] theorem State.advanceTo_now (t : Micros) : (s.advanceTo t).now = max s.now t := rfl

@[simp] theorem State.advanceTo_inReset (t : Micros) : (s.advanceTo t).inReset = s.inReset := rfl

@[simp] theorem State.advanceTo_os (t : Micros) : (s.advanceTo t).os = s.os := rfl

@[simp] theorem State.advanceTo_drain (t : Micros) : (s.advanceTo t).drain = s.drain := rfl

@[simp] theorem State.advanceTo_members (t : Micros) : (s.advanceTo t).members = s.members := rfl

@[simp] theorem State.advanceTo_journal (t : Micros) : (s.advanceTo t).journal = s.journal := rfl

@[simp] theorem State.advanceTo_read (t : Micros) : (s.advanceTo t).read = s.read := rfl

@[simp] theorem State.advanceTo_up (t : Micros) : (s.advanceTo t).up = s.up := rfl

@[simp] theorem State.advanceTo_landing (t : Micros) : (s.advanceTo t).landing = s.landing := rfl

@[simp] theorem State.advanceTo_ds (t : Micros) : (s.advanceTo t).ds = s.ds := rfl

@[simp] theorem State.advanceTo_log (t : Micros) : (s.advanceTo t).log = s.log := rfl

@[simp] theorem State.advanceTo_port (t : Micros) : (s.advanceTo t).port = s.port := rfl

/-! ### record: One fault record (R154). -/

@[simp] theorem State.record_pending (k : FaultKind) (m : Option MemberIx) (p : Option Nat) (d : Nat) :
    (s.record k m p d).pending = s.pending := rfl

@[simp] theorem State.record_now (k : FaultKind) (m : Option MemberIx) (p : Option Nat) (d : Nat) :
    (s.record k m p d).now = s.now := rfl

@[simp] theorem State.record_inReset (k : FaultKind) (m : Option MemberIx) (p : Option Nat) (d : Nat) :
    (s.record k m p d).inReset = s.inReset := rfl

@[simp] theorem State.record_os (k : FaultKind) (m : Option MemberIx) (p : Option Nat) (d : Nat) :
    (s.record k m p d).os = s.os := rfl

@[simp] theorem State.record_drain (k : FaultKind) (m : Option MemberIx) (p : Option Nat) (d : Nat) :
    (s.record k m p d).drain = s.drain := rfl

@[simp] theorem State.record_members (k : FaultKind) (m : Option MemberIx) (p : Option Nat) (d : Nat) :
    (s.record k m p d).members = s.members := rfl

@[simp] theorem State.record_journal (k : FaultKind) (m : Option MemberIx) (p : Option Nat) (d : Nat) :
    (s.record k m p d).journal = s.journal := rfl

@[simp] theorem State.record_read (k : FaultKind) (m : Option MemberIx) (p : Option Nat) (d : Nat) :
    (s.record k m p d).read = s.read := rfl

@[simp] theorem State.record_up (k : FaultKind) (m : Option MemberIx) (p : Option Nat) (d : Nat) :
    (s.record k m p d).up = s.up := rfl

@[simp] theorem State.record_landing (k : FaultKind) (m : Option MemberIx) (p : Option Nat) (d : Nat) :
    (s.record k m p d).landing = s.landing := rfl

@[simp] theorem State.record_ds (k : FaultKind) (m : Option MemberIx) (p : Option Nat) (d : Nat) :
    (s.record k m p d).ds = s.ds := rfl

@[simp] theorem State.record_log (k : FaultKind) (m : Option MemberIx) (p : Option Nat) (d : Nat) :
    (s.record k m p d).log =
      pushRecord
        { stamp := s.stamp, kind := k, member := m, page := p, detail := BitVec.ofNat 8 d,
          lost := false, read := false } s.log := rfl

@[simp] theorem State.record_port (k : FaultKind) (m : Option MemberIx) (p : Option Nat) (d : Nat) :
    (s.record k m p d).port = s.port := rfl

/-! ### say: What the part drives upstream. -/

@[simp] theorem State.say_pending (a : List UpDrive) : (s.say a).pending = s.pending := rfl

@[simp] theorem State.say_now (a : List UpDrive) : (s.say a).now = s.now := rfl

@[simp] theorem State.say_inReset (a : List UpDrive) : (s.say a).inReset = s.inReset := rfl

@[simp] theorem State.say_os (a : List UpDrive) : (s.say a).os = s.os := rfl

@[simp] theorem State.say_drain (a : List UpDrive) : (s.say a).drain = s.drain := rfl

@[simp] theorem State.say_members (a : List UpDrive) : (s.say a).members = s.members := rfl

@[simp] theorem State.say_journal (a : List UpDrive) : (s.say a).journal = s.journal := rfl

@[simp] theorem State.say_read (a : List UpDrive) : (s.say a).read = s.read := rfl

@[simp] theorem State.say_up_phase (a : List UpDrive) : (s.say a).up.phase = s.up.phase := rfl

@[simp] theorem State.say_up_dir (a : List UpDrive) : (s.say a).up.dir = s.up.dir := rfl

@[simp] theorem State.say_up_idle (a : List UpDrive) : (s.say a).up.idle = s.up.idle := rfl

@[simp] theorem State.say_up_drive (a : List UpDrive) : (s.say a).up.drive = a := rfl

@[simp] theorem State.say_landing (a : List UpDrive) : (s.say a).landing = s.landing := rfl

@[simp] theorem State.say_ds (a : List UpDrive) : (s.say a).ds = s.ds := rfl

@[simp] theorem State.say_log (a : List UpDrive) : (s.say a).log = s.log := rfl

@[simp] theorem State.say_port (a : List UpDrive) : (s.say a).port = s.port := rfl

/-! ### alsoSay: What the part drives upstream besides. -/

@[simp] theorem State.alsoSay_pending (a : List UpDrive) : (s.alsoSay a).pending = s.pending := rfl

@[simp] theorem State.alsoSay_now (a : List UpDrive) : (s.alsoSay a).now = s.now := rfl

@[simp] theorem State.alsoSay_inReset (a : List UpDrive) : (s.alsoSay a).inReset = s.inReset := rfl

@[simp] theorem State.alsoSay_os (a : List UpDrive) : (s.alsoSay a).os = s.os := rfl

@[simp] theorem State.alsoSay_drain (a : List UpDrive) : (s.alsoSay a).drain = s.drain := rfl

@[simp] theorem State.alsoSay_members (a : List UpDrive) : (s.alsoSay a).members = s.members := rfl

@[simp] theorem State.alsoSay_journal (a : List UpDrive) : (s.alsoSay a).journal = s.journal := rfl

@[simp] theorem State.alsoSay_read (a : List UpDrive) : (s.alsoSay a).read = s.read := rfl

@[simp] theorem State.alsoSay_up_phase (a : List UpDrive) :
    (s.alsoSay a).up.phase = s.up.phase := rfl

@[simp] theorem State.alsoSay_up_dir (a : List UpDrive) : (s.alsoSay a).up.dir = s.up.dir := rfl

@[simp] theorem State.alsoSay_up_idle (a : List UpDrive) : (s.alsoSay a).up.idle = s.up.idle := rfl

@[simp] theorem State.alsoSay_up_drive (a : List UpDrive) :
    (s.alsoSay a).up.drive = s.up.drive ++ a := rfl

@[simp] theorem State.alsoSay_landing (a : List UpDrive) : (s.alsoSay a).landing = s.landing := rfl

@[simp] theorem State.alsoSay_ds (a : List UpDrive) : (s.alsoSay a).ds = s.ds := rfl

@[simp] theorem State.alsoSay_log (a : List UpDrive) : (s.alsoSay a).log = s.log := rfl

@[simp] theorem State.alsoSay_port (a : List UpDrive) : (s.alsoSay a).port = s.port := rfl

/-! ### drive: What the controller drives. -/

@[simp] theorem State.drive_pending (a : List DownDrive) : (s.drive a).pending = s.pending := rfl

@[simp] theorem State.drive_now (a : List DownDrive) : (s.drive a).now = s.now := rfl

@[simp] theorem State.drive_inReset (a : List DownDrive) : (s.drive a).inReset = s.inReset := rfl

@[simp] theorem State.drive_os (a : List DownDrive) : (s.drive a).os = s.os := rfl

@[simp] theorem State.drive_drain (a : List DownDrive) : (s.drive a).drain = s.drain := rfl

@[simp] theorem State.drive_members (a : List DownDrive) : (s.drive a).members = s.members := rfl

@[simp] theorem State.drive_journal (a : List DownDrive) : (s.drive a).journal = s.journal := rfl

@[simp] theorem State.drive_read (a : List DownDrive) : (s.drive a).read = s.read := rfl

@[simp] theorem State.drive_up (a : List DownDrive) : (s.drive a).up = s.up := rfl

@[simp] theorem State.drive_landing (a : List DownDrive) : (s.drive a).landing = s.landing := rfl

@[simp] theorem State.drive_ds_ctl (a : List DownDrive) : (s.drive a).ds.ctl = s.ds.ctl := rfl

@[simp] theorem State.drive_ds_waiting (a : List DownDrive) :
    (s.drive a).ds.waiting = s.ds.waiting := rfl

@[simp] theorem State.drive_ds_starvation (a : List DownDrive) :
    (s.drive a).ds.starvation = s.ds.starvation := rfl

@[simp] theorem State.drive_ds_drive (a : List DownDrive) : (s.drive a).ds.drive = a := rfl

@[simp] theorem State.drive_ds_moved (a : List DownDrive) : (s.drive a).ds.moved = s.now := rfl

@[simp] theorem State.drive_ds_closing (a : List DownDrive) :
    (s.drive a).ds.closing = s.ds.closing := rfl

@[simp] theorem State.drive_log (a : List DownDrive) : (s.drive a).log = s.log := rfl

@[simp] theorem State.drive_port (a : List DownDrive) : (s.drive a).port = s.port := rfl

/-! ### leaveOpen: A move whose end no row tells (R127). -/

@[simp] theorem State.leaveOpen_pending : (s.leaveOpen).pending = s.pending := rfl

@[simp] theorem State.leaveOpen_now : (s.leaveOpen).now = s.now := rfl

@[simp] theorem State.leaveOpen_inReset : (s.leaveOpen).inReset = s.inReset := rfl

@[simp] theorem State.leaveOpen_os : (s.leaveOpen).os = s.os := rfl

@[simp] theorem State.leaveOpen_drain : (s.leaveOpen).drain = s.drain := rfl

@[simp] theorem State.leaveOpen_members : (s.leaveOpen).members = s.members := rfl

@[simp] theorem State.leaveOpen_journal : (s.leaveOpen).journal = s.journal := rfl

@[simp] theorem State.leaveOpen_read : (s.leaveOpen).read = s.read := rfl

@[simp] theorem State.leaveOpen_up : (s.leaveOpen).up = s.up := rfl

@[simp] theorem State.leaveOpen_landing : (s.leaveOpen).landing = s.landing := rfl

@[simp] theorem State.leaveOpen_ds_ctl : (s.leaveOpen).ds.ctl = s.ds.ctl := rfl

@[simp] theorem State.leaveOpen_ds_waiting : (s.leaveOpen).ds.waiting = s.ds.waiting := rfl

@[simp] theorem State.leaveOpen_ds_starvation : (s.leaveOpen).ds.starvation = s.ds.starvation := rfl

@[simp] theorem State.leaveOpen_ds_drive : (s.leaveOpen).ds.drive = s.ds.drive := rfl

@[simp] theorem State.leaveOpen_ds_moved : (s.leaveOpen).ds.moved = s.ds.moved := rfl

@[simp] theorem State.leaveOpen_ds_closing : (s.leaveOpen).ds.closing = true := rfl

@[simp] theorem State.leaveOpen_log : (s.leaveOpen).log = s.log := rfl

@[simp] theorem State.leaveOpen_port : (s.leaveOpen).port = s.port := rfl

/-! ### follow: What the controller drives after its latest move (R126). -/

@[simp] theorem State.follow_pending (a : List DownDrive) : (s.follow a).pending = s.pending := rfl

@[simp] theorem State.follow_now (a : List DownDrive) : (s.follow a).now = s.now := rfl

@[simp] theorem State.follow_inReset (a : List DownDrive) : (s.follow a).inReset = s.inReset := rfl

@[simp] theorem State.follow_os (a : List DownDrive) : (s.follow a).os = s.os := rfl

@[simp] theorem State.follow_drain (a : List DownDrive) : (s.follow a).drain = s.drain := rfl

@[simp] theorem State.follow_members (a : List DownDrive) : (s.follow a).members = s.members := rfl

@[simp] theorem State.follow_journal (a : List DownDrive) : (s.follow a).journal = s.journal := rfl

@[simp] theorem State.follow_read (a : List DownDrive) : (s.follow a).read = s.read := rfl

@[simp] theorem State.follow_up (a : List DownDrive) : (s.follow a).up = s.up := rfl

@[simp] theorem State.follow_landing (a : List DownDrive) : (s.follow a).landing = s.landing := rfl

@[simp] theorem State.follow_ds_ctl (a : List DownDrive) : (s.follow a).ds.ctl = s.ds.ctl := rfl

@[simp] theorem State.follow_ds_waiting (a : List DownDrive) :
    (s.follow a).ds.waiting = s.ds.waiting := rfl

@[simp] theorem State.follow_ds_starvation (a : List DownDrive) :
    (s.follow a).ds.starvation = s.ds.starvation := rfl

@[simp] theorem State.follow_ds_drive (a : List DownDrive) :
    (s.follow a).ds.drive = if s.unfinishedMove then s.ds.drive ++ a else a := rfl

@[simp] theorem State.follow_ds_moved (a : List DownDrive) :
    (s.follow a).ds.moved = if s.unfinishedMove then s.ds.moved else s.now := rfl

@[simp] theorem State.follow_ds_closing (a : List DownDrive) :
    (s.follow a).ds.closing = false := rfl

@[simp] theorem State.follow_log (a : List DownDrive) : (s.follow a).log = s.log := rfl

@[simp] theorem State.follow_port (a : List DownDrive) : (s.follow a).port = s.port := rfl

/-! ### move: The controller moves the lines (R127). -/

@[simp] theorem State.move_pending : (s.move).pending = s.pending := rfl

@[simp] theorem State.move_now : (s.move).now = s.now := rfl

@[simp] theorem State.move_inReset : (s.move).inReset = s.inReset := rfl

@[simp] theorem State.move_os : (s.move).os = s.os := rfl

@[simp] theorem State.move_drain : (s.move).drain = s.drain := rfl

@[simp] theorem State.move_members : (s.move).members = s.members := rfl

@[simp] theorem State.move_journal : (s.move).journal = s.journal := rfl

@[simp] theorem State.move_read : (s.move).read = s.read := rfl

@[simp] theorem State.move_up : (s.move).up = s.up := rfl

@[simp] theorem State.move_landing : (s.move).landing = s.landing := rfl

@[simp] theorem State.move_ds_ctl : (s.move).ds.ctl = s.ds.ctl := rfl

@[simp] theorem State.move_ds_waiting : (s.move).ds.waiting = s.ds.waiting := rfl

@[simp] theorem State.move_ds_starvation : (s.move).ds.starvation = s.ds.starvation := rfl

@[simp] theorem State.move_ds_drive : (s.move).ds.drive = s.ds.drive := rfl

@[simp] theorem State.move_ds_moved : (s.move).ds.moved = s.now := rfl

@[simp] theorem State.move_ds_closing : (s.move).ds.closing = s.ds.closing := rfl

@[simp] theorem State.move_log : (s.move).log = s.log := rfl

@[simp] theorem State.move_port : (s.move).port = s.port := rfl

/-! ### awaitRise: The lines are waited for (R131). -/

@[simp] theorem State.awaitRise_pending : (s.awaitRise).pending = s.pending := rfl

@[simp] theorem State.awaitRise_now : (s.awaitRise).now = max s.now (s.ds.moved + clearRise) := rfl

@[simp] theorem State.awaitRise_inReset : (s.awaitRise).inReset = s.inReset := rfl

@[simp] theorem State.awaitRise_os : (s.awaitRise).os = s.os := rfl

@[simp] theorem State.awaitRise_drain : (s.awaitRise).drain = s.drain := rfl

@[simp] theorem State.awaitRise_members : (s.awaitRise).members = s.members := rfl

@[simp] theorem State.awaitRise_journal : (s.awaitRise).journal = s.journal := rfl

@[simp] theorem State.awaitRise_read : (s.awaitRise).read = s.read := rfl

@[simp] theorem State.awaitRise_up : (s.awaitRise).up = s.up := rfl

@[simp] theorem State.awaitRise_landing : (s.awaitRise).landing = s.landing := rfl

@[simp] theorem State.awaitRise_ds : (s.awaitRise).ds = s.ds := rfl

@[simp] theorem State.awaitRise_log : (s.awaitRise).log = s.log := rfl

@[simp] theorem State.awaitRise_port : (s.awaitRise).port = s.port := rfl

/-! ### setPhase: The upstream phase. -/

@[simp] theorem State.setPhase_pending (p : Phase) : (s.setPhase p).pending = s.pending := rfl

@[simp] theorem State.setPhase_now (p : Phase) : (s.setPhase p).now = s.now := rfl

@[simp] theorem State.setPhase_inReset (p : Phase) : (s.setPhase p).inReset = s.inReset := rfl

@[simp] theorem State.setPhase_os (p : Phase) : (s.setPhase p).os = s.os := rfl

@[simp] theorem State.setPhase_drain (p : Phase) : (s.setPhase p).drain = s.drain := rfl

@[simp] theorem State.setPhase_members (p : Phase) : (s.setPhase p).members = s.members := rfl

@[simp] theorem State.setPhase_journal (p : Phase) : (s.setPhase p).journal = s.journal := rfl

@[simp] theorem State.setPhase_read (p : Phase) : (s.setPhase p).read = s.read := rfl

@[simp] theorem State.setPhase_up_phase (p : Phase) : (s.setPhase p).up.phase = p := rfl

@[simp] theorem State.setPhase_up_dir (p : Phase) : (s.setPhase p).up.dir = s.up.dir := rfl

@[simp] theorem State.setPhase_up_idle (p : Phase) : (s.setPhase p).up.idle = s.up.idle := rfl

@[simp] theorem State.setPhase_up_drive (p : Phase) : (s.setPhase p).up.drive = s.up.drive := rfl

@[simp] theorem State.setPhase_landing (p : Phase) : (s.setPhase p).landing = s.landing := rfl

@[simp] theorem State.setPhase_ds (p : Phase) : (s.setPhase p).ds = s.ds := rfl

@[simp] theorem State.setPhase_log (p : Phase) : (s.setPhase p).log = s.log := rfl

@[simp] theorem State.setPhase_port (p : Phase) : (s.setPhase p).port = s.port := rfl

/-! ### startIdle: The idle timer starts (R113). -/

@[simp] theorem State.startIdle_pending : (s.startIdle).pending = s.pending := rfl

@[simp] theorem State.startIdle_now : (s.startIdle).now = s.now := rfl

@[simp] theorem State.startIdle_inReset : (s.startIdle).inReset = s.inReset := rfl

@[simp] theorem State.startIdle_os : (s.startIdle).os = s.os := rfl

@[simp] theorem State.startIdle_drain : (s.startIdle).drain = s.drain := rfl

@[simp] theorem State.startIdle_members : (s.startIdle).members = s.members := rfl

@[simp] theorem State.startIdle_journal : (s.startIdle).journal = s.journal := rfl

@[simp] theorem State.startIdle_read : (s.startIdle).read = s.read := rfl

@[simp] theorem State.startIdle_up_phase : (s.startIdle).up.phase = s.up.phase := rfl

@[simp] theorem State.startIdle_up_dir : (s.startIdle).up.dir = s.up.dir := rfl

@[simp] theorem State.startIdle_up_idle : (s.startIdle).up.idle = some s.now := rfl

@[simp] theorem State.startIdle_up_drive : (s.startIdle).up.drive = s.up.drive := rfl

@[simp] theorem State.startIdle_landing : (s.startIdle).landing = s.landing := rfl

@[simp] theorem State.startIdle_ds : (s.startIdle).ds = s.ds := rfl

@[simp] theorem State.startIdle_log : (s.startIdle).log = s.log := rfl

@[simp] theorem State.startIdle_port : (s.startIdle).port = s.port := rfl

/-! ### stopIdle: The idle timer stops (R113). -/

@[simp] theorem State.stopIdle_pending : (s.stopIdle).pending = s.pending := rfl

@[simp] theorem State.stopIdle_now : (s.stopIdle).now = s.now := rfl

@[simp] theorem State.stopIdle_inReset : (s.stopIdle).inReset = s.inReset := rfl

@[simp] theorem State.stopIdle_os : (s.stopIdle).os = s.os := rfl

@[simp] theorem State.stopIdle_drain : (s.stopIdle).drain = s.drain := rfl

@[simp] theorem State.stopIdle_members : (s.stopIdle).members = s.members := rfl

@[simp] theorem State.stopIdle_journal : (s.stopIdle).journal = s.journal := rfl

@[simp] theorem State.stopIdle_read : (s.stopIdle).read = s.read := rfl

@[simp] theorem State.stopIdle_up_phase : (s.stopIdle).up.phase = s.up.phase := rfl

@[simp] theorem State.stopIdle_up_dir : (s.stopIdle).up.dir = s.up.dir := rfl

@[simp] theorem State.stopIdle_up_idle : (s.stopIdle).up.idle = none := rfl

@[simp] theorem State.stopIdle_up_drive : (s.stopIdle).up.drive = s.up.drive := rfl

@[simp] theorem State.stopIdle_landing : (s.stopIdle).landing = s.landing := rfl

@[simp] theorem State.stopIdle_ds : (s.stopIdle).ds = s.ds := rfl

@[simp] theorem State.stopIdle_log : (s.stopIdle).log = s.log := rfl

@[simp] theorem State.stopIdle_port : (s.stopIdle).port = s.port := rfl

/-! ### toIdle: The upstream record returns to IDLE (R96). -/

@[simp] theorem State.toIdle_pending : (s.toIdle).pending = s.pending := rfl

@[simp] theorem State.toIdle_now : (s.toIdle).now = s.now := rfl

@[simp] theorem State.toIdle_inReset : (s.toIdle).inReset = s.inReset := rfl

@[simp] theorem State.toIdle_os : (s.toIdle).os = s.os := rfl

@[simp] theorem State.toIdle_drain : (s.toIdle).drain = s.drain := rfl

@[simp] theorem State.toIdle_members : (s.toIdle).members = s.members := rfl

@[simp] theorem State.toIdle_journal : (s.toIdle).journal = s.journal := rfl

@[simp] theorem State.toIdle_read : (s.toIdle).read = s.read := rfl

@[simp] theorem State.toIdle_up_phase : (s.toIdle).up.phase = .idle := rfl

@[simp] theorem State.toIdle_up_dir : (s.toIdle).up.dir = none := rfl

@[simp] theorem State.toIdle_up_idle : (s.toIdle).up.idle = none := rfl

@[simp] theorem State.toIdle_up_drive : (s.toIdle).up.drive = s.up.drive := rfl

@[simp] theorem State.toIdle_landing : (s.toIdle).landing = s.landing := rfl

@[simp] theorem State.toIdle_ds : (s.toIdle).ds = s.ds := rfl

@[simp] theorem State.toIdle_log : (s.toIdle).log = s.log := rfl

@[simp] theorem State.toIdle_port : (s.toIdle).port = s.port := rfl

/-! ### toAddress: A START (R96). -/

@[simp] theorem State.toAddress_pending : (s.toAddress).pending = s.pending := rfl

@[simp] theorem State.toAddress_now : (s.toAddress).now = s.now := rfl

@[simp] theorem State.toAddress_inReset : (s.toAddress).inReset = s.inReset := rfl

@[simp] theorem State.toAddress_os : (s.toAddress).os = s.os := rfl

@[simp] theorem State.toAddress_drain : (s.toAddress).drain = s.drain := rfl

@[simp] theorem State.toAddress_members : (s.toAddress).members = s.members := rfl

@[simp] theorem State.toAddress_journal : (s.toAddress).journal = s.journal := rfl

@[simp] theorem State.toAddress_read : (s.toAddress).read = s.read := rfl

@[simp] theorem State.toAddress_up_phase : (s.toAddress).up.phase = .address := rfl

@[simp] theorem State.toAddress_up_dir : (s.toAddress).up.dir = none := rfl

@[simp] theorem State.toAddress_up_idle : (s.toAddress).up.idle = some s.now := rfl

@[simp] theorem State.toAddress_up_drive : (s.toAddress).up.drive = s.up.drive := rfl

@[simp] theorem State.toAddress_landing : (s.toAddress).landing = s.landing := rfl

@[simp] theorem State.toAddress_ds : (s.toAddress).ds = s.ds := rfl

@[simp] theorem State.toAddress_log : (s.toAddress).log = s.log := rfl

@[simp] theorem State.toAddress_port : (s.toAddress).port = s.port := rfl

/-! ### refuseAddress: An address byte is refused (R97). -/

@[simp] theorem State.refuseAddress_pending : (s.refuseAddress).pending = s.pending := rfl

@[simp] theorem State.refuseAddress_now : (s.refuseAddress).now = s.now := rfl

@[simp] theorem State.refuseAddress_inReset : (s.refuseAddress).inReset = s.inReset := rfl

@[simp] theorem State.refuseAddress_os : (s.refuseAddress).os = s.os := rfl

@[simp] theorem State.refuseAddress_drain : (s.refuseAddress).drain = s.drain := rfl

@[simp] theorem State.refuseAddress_members : (s.refuseAddress).members = s.members := rfl

@[simp] theorem State.refuseAddress_journal : (s.refuseAddress).journal = s.journal := rfl

@[simp] theorem State.refuseAddress_read : (s.refuseAddress).read = s.read := rfl

@[simp] theorem State.refuseAddress_up_phase : (s.refuseAddress).up.phase = .notAddressed := rfl

@[simp] theorem State.refuseAddress_up_dir : (s.refuseAddress).up.dir = s.up.dir := rfl

@[simp] theorem State.refuseAddress_up_idle : (s.refuseAddress).up.idle = none := rfl

@[simp] theorem State.refuseAddress_up_drive : (s.refuseAddress).up.drive = [.nack] := rfl

@[simp] theorem State.refuseAddress_landing : (s.refuseAddress).landing = s.landing := rfl

@[simp] theorem State.refuseAddress_ds : (s.refuseAddress).ds = s.ds := rfl

@[simp] theorem State.refuseAddress_log : (s.refuseAddress).log = s.log := rfl

@[simp] theorem State.refuseAddress_port : (s.refuseAddress).port = s.port := rfl

/-! ### updateMember: A row of the member table. -/

@[simp] theorem State.updateMember_pending (m : MemberIx) (f : Member → Member) :
    (s.updateMember m f).pending = s.pending := rfl

@[simp] theorem State.updateMember_now (m : MemberIx) (f : Member → Member) :
    (s.updateMember m f).now = s.now := rfl

@[simp] theorem State.updateMember_inReset (m : MemberIx) (f : Member → Member) :
    (s.updateMember m f).inReset = s.inReset := rfl

@[simp] theorem State.updateMember_os (m : MemberIx) (f : Member → Member) :
    (s.updateMember m f).os = s.os := rfl

@[simp] theorem State.updateMember_drain (m : MemberIx) (f : Member → Member) :
    (s.updateMember m f).drain = s.drain := rfl

@[simp] theorem State.updateMember_members (m : MemberIx) (f : Member → Member) :
    (s.updateMember m f).members = s.members.modify m.val f := rfl

@[simp] theorem State.updateMember_journal (m : MemberIx) (f : Member → Member) :
    (s.updateMember m f).journal = s.journal := rfl

@[simp] theorem State.updateMember_read (m : MemberIx) (f : Member → Member) :
    (s.updateMember m f).read = s.read := rfl

@[simp] theorem State.updateMember_up (m : MemberIx) (f : Member → Member) :
    (s.updateMember m f).up = s.up := rfl

@[simp] theorem State.updateMember_landing (m : MemberIx) (f : Member → Member) :
    (s.updateMember m f).landing = s.landing := rfl

@[simp] theorem State.updateMember_ds (m : MemberIx) (f : Member → Member) :
    (s.updateMember m f).ds = s.ds := rfl

@[simp] theorem State.updateMember_log (m : MemberIx) (f : Member → Member) :
    (s.updateMember m f).log = s.log := rfl

@[simp] theorem State.updateMember_port (m : MemberIx) (f : Member → Member) :
    (s.updateMember m f).port = s.port := rfl

/-! ### setMember: A member's state. -/

@[simp] theorem State.setMember_pending (m : MemberIx) (st : MemberState) :
    (s.setMember m st).pending = s.pending := rfl

@[simp] theorem State.setMember_now (m : MemberIx) (st : MemberState) :
    (s.setMember m st).now = s.now := rfl

@[simp] theorem State.setMember_inReset (m : MemberIx) (st : MemberState) :
    (s.setMember m st).inReset = s.inReset := rfl

@[simp] theorem State.setMember_os (m : MemberIx) (st : MemberState) :
    (s.setMember m st).os = s.os := rfl

@[simp] theorem State.setMember_drain (m : MemberIx) (st : MemberState) :
    (s.setMember m st).drain = s.drain := rfl

@[simp] theorem State.setMember_members (m : MemberIx) (st : MemberState) :
    (s.setMember m st).members = s.members.modify m.val fun x => { x with state := st } := rfl

@[simp] theorem State.setMember_journal (m : MemberIx) (st : MemberState) :
    (s.setMember m st).journal = s.journal := rfl

@[simp] theorem State.setMember_read (m : MemberIx) (st : MemberState) :
    (s.setMember m st).read = s.read := rfl

@[simp] theorem State.setMember_up (m : MemberIx) (st : MemberState) :
    (s.setMember m st).up = s.up := rfl

@[simp] theorem State.setMember_landing (m : MemberIx) (st : MemberState) :
    (s.setMember m st).landing = s.landing := rfl

@[simp] theorem State.setMember_ds (m : MemberIx) (st : MemberState) :
    (s.setMember m st).ds = s.ds := rfl

@[simp] theorem State.setMember_log (m : MemberIx) (st : MemberState) :
    (s.setMember m st).log = s.log := rfl

@[simp] theorem State.setMember_port (m : MemberIx) (st : MemberState) :
    (s.setMember m st).port = s.port := rfl

/-! ### setPointer: A member's pointer (R89). -/

@[simp] theorem State.setPointer_pending (m : MemberIx) (a : MemberAddr) :
    (s.setPointer m a).pending = s.pending := rfl

@[simp] theorem State.setPointer_now (m : MemberIx) (a : MemberAddr) :
    (s.setPointer m a).now = s.now := rfl

@[simp] theorem State.setPointer_inReset (m : MemberIx) (a : MemberAddr) :
    (s.setPointer m a).inReset = s.inReset := rfl

@[simp] theorem State.setPointer_os (m : MemberIx) (a : MemberAddr) :
    (s.setPointer m a).os = s.os := rfl

@[simp] theorem State.setPointer_drain (m : MemberIx) (a : MemberAddr) :
    (s.setPointer m a).drain = s.drain := rfl

@[simp] theorem State.setPointer_members (m : MemberIx) (a : MemberAddr) :
    (s.setPointer m a).members = s.members.modify m.val fun x => { x with pointer := a } := rfl

@[simp] theorem State.setPointer_journal (m : MemberIx) (a : MemberAddr) :
    (s.setPointer m a).journal = s.journal := rfl

@[simp] theorem State.setPointer_read (m : MemberIx) (a : MemberAddr) :
    (s.setPointer m a).read = s.read := rfl

@[simp] theorem State.setPointer_up (m : MemberIx) (a : MemberAddr) :
    (s.setPointer m a).up = s.up := rfl

@[simp] theorem State.setPointer_landing (m : MemberIx) (a : MemberAddr) :
    (s.setPointer m a).landing = s.landing := rfl

@[simp] theorem State.setPointer_ds (m : MemberIx) (a : MemberAddr) :
    (s.setPointer m a).ds = s.ds := rfl

@[simp] theorem State.setPointer_log (m : MemberIx) (a : MemberAddr) :
    (s.setPointer m a).log = s.log := rfl

@[simp] theorem State.setPointer_port (m : MemberIx) (a : MemberAddr) :
    (s.setPointer m a).port = s.port := rfl

/-! ### setCtl: The controller's condition. -/

@[simp] theorem State.setCtl_pending (c : Controller) : (s.setCtl c).pending = s.pending := rfl

@[simp] theorem State.setCtl_now (c : Controller) : (s.setCtl c).now = s.now := rfl

@[simp] theorem State.setCtl_inReset (c : Controller) : (s.setCtl c).inReset = s.inReset := rfl

@[simp] theorem State.setCtl_os (c : Controller) : (s.setCtl c).os = s.os := rfl

@[simp] theorem State.setCtl_drain (c : Controller) : (s.setCtl c).drain = s.drain := rfl

@[simp] theorem State.setCtl_members (c : Controller) : (s.setCtl c).members = s.members := rfl

@[simp] theorem State.setCtl_journal (c : Controller) : (s.setCtl c).journal = s.journal := rfl

@[simp] theorem State.setCtl_read (c : Controller) : (s.setCtl c).read = s.read := rfl

@[simp] theorem State.setCtl_up (c : Controller) : (s.setCtl c).up = s.up := rfl

@[simp] theorem State.setCtl_landing (c : Controller) : (s.setCtl c).landing = s.landing := rfl

@[simp] theorem State.setCtl_ds_ctl (c : Controller) : (s.setCtl c).ds.ctl = c := rfl

@[simp] theorem State.setCtl_ds_waiting (c : Controller) :
    (s.setCtl c).ds.waiting = s.ds.waiting := rfl

@[simp] theorem State.setCtl_ds_starvation (c : Controller) :
    (s.setCtl c).ds.starvation = s.ds.starvation := rfl

@[simp] theorem State.setCtl_ds_drive (c : Controller) : (s.setCtl c).ds.drive = s.ds.drive := rfl

@[simp] theorem State.setCtl_ds_moved (c : Controller) : (s.setCtl c).ds.moved = s.ds.moved := rfl

@[simp] theorem State.setCtl_ds_closing (c : Controller) :
    (s.setCtl c).ds.closing = s.ds.closing := rfl

@[simp] theorem State.setCtl_log (c : Controller) : (s.setCtl c).log = s.log := rfl

@[simp] theorem State.setCtl_port (c : Controller) : (s.setCtl c).port = s.port := rfl

/-! ### freeBus: The controller is FREE (R119). -/

@[simp] theorem State.freeBus_pending : (s.freeBus).pending = s.pending := rfl

@[simp] theorem State.freeBus_now : (s.freeBus).now = s.now := rfl

@[simp] theorem State.freeBus_inReset : (s.freeBus).inReset = s.inReset := rfl

@[simp] theorem State.freeBus_os : (s.freeBus).os = s.os := rfl

@[simp] theorem State.freeBus_drain : (s.freeBus).drain = s.drain := rfl

@[simp] theorem State.freeBus_members : (s.freeBus).members = s.members := rfl

@[simp] theorem State.freeBus_journal : (s.freeBus).journal = s.journal := rfl

@[simp] theorem State.freeBus_read : (s.freeBus).read = s.read := rfl

@[simp] theorem State.freeBus_up : (s.freeBus).up = s.up := rfl

@[simp] theorem State.freeBus_landing : (s.freeBus).landing = s.landing := rfl

@[simp] theorem State.freeBus_ds_ctl : (s.freeBus).ds.ctl = .free := rfl

@[simp] theorem State.freeBus_ds_waiting : (s.freeBus).ds.waiting = s.ds.waiting := rfl

@[simp] theorem State.freeBus_ds_starvation : (s.freeBus).ds.starvation = s.ds.starvation := rfl

@[simp] theorem State.freeBus_ds_drive : (s.freeBus).ds.drive = s.ds.drive := rfl

@[simp] theorem State.freeBus_ds_moved : (s.freeBus).ds.moved = s.ds.moved := rfl

@[simp] theorem State.freeBus_ds_closing : (s.freeBus).ds.closing = false := rfl

@[simp] theorem State.freeBus_log : (s.freeBus).log = s.log := rfl

@[simp] theorem State.freeBus_port : (s.freeBus).port = s.port := rfl

/-! ### releaseRelay: A relay gives up its grant (R126). -/

@[simp] theorem State.releaseRelay_pending : (s.releaseRelay).pending = s.pending := rfl

@[simp] theorem State.releaseRelay_now : (s.releaseRelay).now = s.now := rfl

@[simp] theorem State.releaseRelay_inReset : (s.releaseRelay).inReset = s.inReset := rfl

@[simp] theorem State.releaseRelay_os : (s.releaseRelay).os = s.os := rfl

@[simp] theorem State.releaseRelay_drain : (s.releaseRelay).drain = s.drain := rfl

@[simp] theorem State.releaseRelay_members : (s.releaseRelay).members = s.members := rfl

@[simp] theorem State.releaseRelay_journal : (s.releaseRelay).journal = s.journal := rfl

@[simp] theorem State.releaseRelay_read : (s.releaseRelay).read = s.read := rfl

@[simp] theorem State.releaseRelay_up : (s.releaseRelay).up = s.up := rfl

@[simp] theorem State.releaseRelay_landing : (s.releaseRelay).landing = s.landing := rfl

@[simp] theorem State.releaseRelay_ds_ctl : (s.releaseRelay).ds.ctl = .free := rfl

@[simp] theorem State.releaseRelay_ds_waiting : (s.releaseRelay).ds.waiting = s.ds.waiting := rfl

@[simp] theorem State.releaseRelay_ds_starvation :
    (s.releaseRelay).ds.starvation = s.ds.starvation := rfl

@[simp] theorem State.releaseRelay_ds_drive : (s.releaseRelay).ds.drive = s.ds.drive := rfl

@[simp] theorem State.releaseRelay_ds_moved : (s.releaseRelay).ds.moved = s.ds.moved := rfl

@[simp] theorem State.releaseRelay_ds_closing : (s.releaseRelay).ds.closing = true := rfl

@[simp] theorem State.releaseRelay_log : (s.releaseRelay).log = s.log := rfl

@[simp] theorem State.releaseRelay_port : (s.releaseRelay).port = s.port := rfl

/-! ### openFor: The lines are waited for (R130). -/

@[simp] theorem State.openFor_pending (r : Request) : (s.openFor r).pending = s.pending := rfl

@[simp] theorem State.openFor_now (r : Request) : (s.openFor r).now = s.now := rfl

@[simp] theorem State.openFor_inReset (r : Request) : (s.openFor r).inReset = s.inReset := rfl

@[simp] theorem State.openFor_os (r : Request) : (s.openFor r).os = s.os := rfl

@[simp] theorem State.openFor_drain (r : Request) : (s.openFor r).drain = s.drain := rfl

@[simp] theorem State.openFor_members (r : Request) : (s.openFor r).members = s.members := rfl

@[simp] theorem State.openFor_journal (r : Request) : (s.openFor r).journal = s.journal := rfl

@[simp] theorem State.openFor_read (r : Request) : (s.openFor r).read = s.read := rfl

@[simp] theorem State.openFor_up (r : Request) : (s.openFor r).up = s.up := rfl

@[simp] theorem State.openFor_landing (r : Request) : (s.openFor r).landing = s.landing := rfl

@[simp] theorem State.openFor_ds_ctl (r : Request) : (s.openFor r).ds.ctl = .opening r s.now := rfl

@[simp] theorem State.openFor_ds_waiting (r : Request) :
    (s.openFor r).ds.waiting = s.ds.waiting := rfl

@[simp] theorem State.openFor_ds_starvation (r : Request) :
    (s.openFor r).ds.starvation = s.ds.starvation := rfl

@[simp] theorem State.openFor_ds_drive (r : Request) : (s.openFor r).ds.drive = s.ds.drive := rfl

@[simp] theorem State.openFor_ds_moved (r : Request) : (s.openFor r).ds.moved = s.ds.moved := rfl

@[simp] theorem State.openFor_ds_closing (r : Request) : (s.openFor r).ds.closing = false := rfl

@[simp] theorem State.openFor_log (r : Request) : (s.openFor r).log = s.log := rfl

@[simp] theorem State.openFor_port (r : Request) : (s.openFor r).port = s.port := rfl

/-! ### endTransaction: A transaction ends by STOP (R121). -/

@[simp] theorem State.endTransaction_pending : (s.endTransaction).pending = s.pending := rfl

@[simp] theorem State.endTransaction_now : (s.endTransaction).now = s.now := rfl

@[simp] theorem State.endTransaction_inReset : (s.endTransaction).inReset = s.inReset := rfl

@[simp] theorem State.endTransaction_os : (s.endTransaction).os = s.os := rfl

@[simp] theorem State.endTransaction_drain : (s.endTransaction).drain = s.drain := rfl

@[simp] theorem State.endTransaction_members : (s.endTransaction).members = s.members := rfl

@[simp] theorem State.endTransaction_journal : (s.endTransaction).journal = s.journal := rfl

@[simp] theorem State.endTransaction_read : (s.endTransaction).read = s.read := rfl

@[simp] theorem State.endTransaction_up : (s.endTransaction).up = s.up := rfl

@[simp] theorem State.endTransaction_landing : (s.endTransaction).landing = s.landing := rfl

@[simp] theorem State.endTransaction_ds_ctl : (s.endTransaction).ds.ctl = .free := rfl

@[simp] theorem State.endTransaction_ds_waiting :
    (s.endTransaction).ds.waiting = s.ds.waiting := rfl

@[simp] theorem State.endTransaction_ds_starvation :
    (s.endTransaction).ds.starvation = s.ds.starvation := rfl

@[simp] theorem State.endTransaction_ds_drive :
    (s.endTransaction).ds.drive = [.stop, .release] := rfl

@[simp] theorem State.endTransaction_ds_moved : (s.endTransaction).ds.moved = s.now := rfl

@[simp] theorem State.endTransaction_ds_closing : (s.endTransaction).ds.closing = false := rfl

@[simp] theorem State.endTransaction_log : (s.endTransaction).log = s.log := rfl

@[simp] theorem State.endTransaction_port : (s.endTransaction).port = s.port := rfl

/-! ### faultBus: A fault of the bus (R129). -/

@[simp] theorem State.faultBus_pending (m : Option MemberIx) (p : Option Nat) (d : Nat) :
    (s.faultBus m p d).pending = s.pending := rfl

@[simp] theorem State.faultBus_now (m : Option MemberIx) (p : Option Nat) (d : Nat) :
    (s.faultBus m p d).now = s.now := rfl

@[simp] theorem State.faultBus_inReset (m : Option MemberIx) (p : Option Nat) (d : Nat) :
    (s.faultBus m p d).inReset = s.inReset := rfl

@[simp] theorem State.faultBus_os (m : Option MemberIx) (p : Option Nat) (d : Nat) :
    (s.faultBus m p d).os = s.os := rfl

@[simp] theorem State.faultBus_drain (m : Option MemberIx) (p : Option Nat) (d : Nat) :
    (s.faultBus m p d).drain = s.drain := rfl

@[simp] theorem State.faultBus_members (m : Option MemberIx) (p : Option Nat) (d : Nat) :
    (s.faultBus m p d).members = s.members := rfl

@[simp] theorem State.faultBus_journal (m : Option MemberIx) (p : Option Nat) (d : Nat) :
    (s.faultBus m p d).journal = s.journal := rfl

@[simp] theorem State.faultBus_read (m : Option MemberIx) (p : Option Nat) (d : Nat) :
    (s.faultBus m p d).read = s.read := rfl

@[simp] theorem State.faultBus_up (m : Option MemberIx) (p : Option Nat) (d : Nat) :
    (s.faultBus m p d).up = s.up := rfl

@[simp] theorem State.faultBus_landing (m : Option MemberIx) (p : Option Nat) (d : Nat) :
    (s.faultBus m p d).landing = s.landing := rfl

@[simp] theorem State.faultBus_ds_ctl (m : Option MemberIx) (p : Option Nat) (d : Nat) :
    (s.faultBus m p d).ds.ctl = .clearing := rfl

@[simp] theorem State.faultBus_ds_waiting (m : Option MemberIx) (p : Option Nat) (d : Nat) :
    (s.faultBus m p d).ds.waiting = s.ds.waiting := rfl

@[simp] theorem State.faultBus_ds_starvation (m : Option MemberIx) (p : Option Nat) (d : Nat) :
    (s.faultBus m p d).ds.starvation = s.ds.starvation := rfl

@[simp] theorem State.faultBus_ds_drive (m : Option MemberIx) (p : Option Nat) (d : Nat) :
    (s.faultBus m p d).ds.drive = [.release] := rfl

@[simp] theorem State.faultBus_ds_moved (m : Option MemberIx) (p : Option Nat) (d : Nat) :
    (s.faultBus m p d).ds.moved = s.now := rfl

@[simp] theorem State.faultBus_ds_closing (m : Option MemberIx) (p : Option Nat) (d : Nat) :
    (s.faultBus m p d).ds.closing = s.ds.closing := rfl

@[simp] theorem State.faultBus_log (m : Option MemberIx) (p : Option Nat) (d : Nat) :
    (s.faultBus m p d).log =
      pushRecord
        { stamp := s.stamp, kind := .downFault, member := m, page := p, detail := BitVec.ofNat 8 d,
          lost := false, read := false } s.log := rfl

@[simp] theorem State.faultBus_port (m : Option MemberIx) (p : Option Nat) (d : Nat) :
    (s.faultBus m p d).port = s.port := rfl

/-! ### withdraw: A request is withdrawn (R120). -/

@[simp] theorem State.withdraw_pending (r : Request) : (s.withdraw r).pending = s.pending := rfl

@[simp] theorem State.withdraw_now (r : Request) : (s.withdraw r).now = s.now := rfl

@[simp] theorem State.withdraw_inReset (r : Request) : (s.withdraw r).inReset = s.inReset := rfl

@[simp] theorem State.withdraw_os (r : Request) : (s.withdraw r).os = s.os := rfl

@[simp] theorem State.withdraw_drain (r : Request) : (s.withdraw r).drain = s.drain := rfl

@[simp] theorem State.withdraw_members (r : Request) : (s.withdraw r).members = s.members := rfl

@[simp] theorem State.withdraw_journal (r : Request) : (s.withdraw r).journal = s.journal := rfl

@[simp] theorem State.withdraw_read (r : Request) : (s.withdraw r).read = s.read := rfl

@[simp] theorem State.withdraw_up (r : Request) : (s.withdraw r).up = s.up := rfl

@[simp] theorem State.withdraw_landing (r : Request) : (s.withdraw r).landing = s.landing := rfl

@[simp] theorem State.withdraw_ds_ctl (r : Request) :
    (s.withdraw r).ds.ctl =
      match s.ds.ctl with
        | .opening r' t => if r' = r then .free else .opening r' t
        | c => c := rfl

@[simp] theorem State.withdraw_ds_waiting (r : Request) :
    (s.withdraw r).ds.waiting = s.ds.waiting.filter (· != r) := rfl

@[simp] theorem State.withdraw_ds_starvation (r : Request) :
    (s.withdraw r).ds.starvation = s.ds.starvation := rfl

@[simp] theorem State.withdraw_ds_drive (r : Request) : (s.withdraw r).ds.drive = s.ds.drive := rfl

@[simp] theorem State.withdraw_ds_moved (r : Request) : (s.withdraw r).ds.moved = s.ds.moved := rfl

@[simp] theorem State.withdraw_ds_closing (r : Request) :
    (s.withdraw r).ds.closing = s.ds.closing := rfl

@[simp] theorem State.withdraw_log (r : Request) : (s.withdraw r).log = s.log := rfl

@[simp] theorem State.withdraw_port (r : Request) : (s.withdraw r).port = s.port := rfl

/-! ### updateSlotEntry: The entry in a slot. -/

@[simp] theorem State.updateSlotEntry_pending (m : MemberIx) (f : Flight → Entry → Entry) :
    (s.updateSlotEntry m f).pending = s.pending := rfl

@[simp] theorem State.updateSlotEntry_now (m : MemberIx) (f : Flight → Entry → Entry) :
    (s.updateSlotEntry m f).now = s.now := rfl

@[simp] theorem State.updateSlotEntry_inReset (m : MemberIx) (f : Flight → Entry → Entry) :
    (s.updateSlotEntry m f).inReset = s.inReset := rfl

@[simp] theorem State.updateSlotEntry_os (m : MemberIx) (f : Flight → Entry → Entry) :
    (s.updateSlotEntry m f).os = s.os := rfl

@[simp] theorem State.updateSlotEntry_drain (m : MemberIx) (f : Flight → Entry → Entry) :
    (s.updateSlotEntry m f).drain = s.drain := rfl

@[simp] theorem State.updateSlotEntry_members (m : MemberIx) (f : Flight → Entry → Entry) :
    (s.updateSlotEntry m f).members = s.members := rfl

@[simp] theorem State.updateSlotEntry_read (m : MemberIx) (f : Flight → Entry → Entry) :
    (s.updateSlotEntry m f).read = s.read := rfl

@[simp] theorem State.updateSlotEntry_up (m : MemberIx) (f : Flight → Entry → Entry) :
    (s.updateSlotEntry m f).up = s.up := rfl

@[simp] theorem State.updateSlotEntry_landing (m : MemberIx) (f : Flight → Entry → Entry) :
    (s.updateSlotEntry m f).landing = s.landing := rfl

@[simp] theorem State.updateSlotEntry_ds (m : MemberIx) (f : Flight → Entry → Entry) :
    (s.updateSlotEntry m f).ds = s.ds := rfl

@[simp] theorem State.updateSlotEntry_log (m : MemberIx) (f : Flight → Entry → Entry) :
    (s.updateSlotEntry m f).log = s.log := rfl

@[simp] theorem State.updateSlotEntry_port (m : MemberIx) (f : Flight → Entry → Entry) :
    (s.updateSlotEntry m f).port = s.port := rfl

/-! ### updateFlight: The working values of a slot. -/

@[simp] theorem State.updateFlight_pending (m : MemberIx) (g : Flight → Flight) :
    (s.updateFlight m g).pending = s.pending := rfl

@[simp] theorem State.updateFlight_now (m : MemberIx) (g : Flight → Flight) :
    (s.updateFlight m g).now = s.now := rfl

@[simp] theorem State.updateFlight_inReset (m : MemberIx) (g : Flight → Flight) :
    (s.updateFlight m g).inReset = s.inReset := rfl

@[simp] theorem State.updateFlight_os (m : MemberIx) (g : Flight → Flight) :
    (s.updateFlight m g).os = s.os := rfl

@[simp] theorem State.updateFlight_drain (m : MemberIx) (g : Flight → Flight) :
    (s.updateFlight m g).drain = s.drain := rfl

@[simp] theorem State.updateFlight_members (m : MemberIx) (g : Flight → Flight) :
    (s.updateFlight m g).members = s.members := rfl

@[simp] theorem State.updateFlight_read (m : MemberIx) (g : Flight → Flight) :
    (s.updateFlight m g).read = s.read := rfl

@[simp] theorem State.updateFlight_up (m : MemberIx) (g : Flight → Flight) :
    (s.updateFlight m g).up = s.up := rfl

@[simp] theorem State.updateFlight_landing (m : MemberIx) (g : Flight → Flight) :
    (s.updateFlight m g).landing = s.landing := rfl

@[simp] theorem State.updateFlight_ds (m : MemberIx) (g : Flight → Flight) :
    (s.updateFlight m g).ds = s.ds := rfl

@[simp] theorem State.updateFlight_log (m : MemberIx) (g : Flight → Flight) :
    (s.updateFlight m g).log = s.log := rfl

@[simp] theorem State.updateFlight_port (m : MemberIx) (g : Flight → Flight) :
    (s.updateFlight m g).port = s.port := rfl

/-! ### setFetch: The fetch of the open read. -/

@[simp] theorem State.setFetch_pending (st : FetchState) :
    (s.setFetch st).pending = s.pending := rfl

@[simp] theorem State.setFetch_now (st : FetchState) : (s.setFetch st).now = s.now := rfl

@[simp] theorem State.setFetch_inReset (st : FetchState) :
    (s.setFetch st).inReset = s.inReset := rfl

@[simp] theorem State.setFetch_os (st : FetchState) : (s.setFetch st).os = s.os := rfl

@[simp] theorem State.setFetch_drain (st : FetchState) : (s.setFetch st).drain = s.drain := rfl

@[simp] theorem State.setFetch_members (st : FetchState) :
    (s.setFetch st).members = s.members := rfl

@[simp] theorem State.setFetch_journal (st : FetchState) :
    (s.setFetch st).journal = s.journal := rfl

@[simp] theorem State.setFetch_up (st : FetchState) : (s.setFetch st).up = s.up := rfl

@[simp] theorem State.setFetch_landing (st : FetchState) :
    (s.setFetch st).landing = s.landing := rfl

@[simp] theorem State.setFetch_ds (st : FetchState) : (s.setFetch st).ds = s.ds := rfl

@[simp] theorem State.setFetch_log (st : FetchState) : (s.setFetch st).log = s.log := rfl

@[simp] theorem State.setFetch_port (st : FetchState) : (s.setFetch st).port = s.port := rfl

/-! ### markAll: Marking (R139). -/

@[simp] theorem State.markAll_pending : (s.markAll).pending = s.pending := rfl

@[simp] theorem State.markAll_now : (s.markAll).now = s.now := rfl

@[simp] theorem State.markAll_inReset : (s.markAll).inReset = s.inReset := rfl

@[simp] theorem State.markAll_os : (s.markAll).os = s.os := rfl

@[simp] theorem State.markAll_drain : (s.markAll).drain = s.drain := rfl

@[simp] theorem State.markAll_members : (s.markAll).members = s.members := rfl

@[simp] theorem State.markAll_journal :
    (s.markAll).journal = s.journal.map fun e => { e with marked := true } := rfl

@[simp] theorem State.markAll_read : (s.markAll).read = s.read := rfl

@[simp] theorem State.markAll_up : (s.markAll).up = s.up := rfl

@[simp] theorem State.markAll_landing : (s.markAll).landing = s.landing := rfl

@[simp] theorem State.markAll_ds : (s.markAll).ds = s.ds := rfl

@[simp] theorem State.markAll_log : (s.markAll).log = s.log := rfl

@[simp] theorem State.markAll_port : (s.markAll).port = s.port := rfl

/-! ### mergeInto: A merge of a hand-over (R13). -/

@[simp] theorem State.mergeInto_pending (i : Nat) (l : Landing) :
    (s.mergeInto i l).pending = s.pending := rfl

@[simp] theorem State.mergeInto_now (i : Nat) (l : Landing) : (s.mergeInto i l).now = s.now := rfl

@[simp] theorem State.mergeInto_inReset (i : Nat) (l : Landing) :
    (s.mergeInto i l).inReset = s.inReset := rfl

@[simp] theorem State.mergeInto_os (i : Nat) (l : Landing) : (s.mergeInto i l).os = s.os := rfl

@[simp] theorem State.mergeInto_drain (i : Nat) (l : Landing) :
    (s.mergeInto i l).drain = s.drain := rfl

@[simp] theorem State.mergeInto_members (i : Nat) (l : Landing) :
    (s.mergeInto i l).members = s.members := rfl

@[simp] theorem State.mergeInto_journal (i : Nat) (l : Landing) :
    (s.mergeInto i l).journal =
      s.journal.modify i fun e =>
        { e with
          image := e.image.overlay l.image
          deadline := s.now + ms (s.info l.member).dwellMs } := rfl

@[simp] theorem State.mergeInto_read (i : Nat) (l : Landing) :
    (s.mergeInto i l).read = s.read := rfl

@[simp] theorem State.mergeInto_up (i : Nat) (l : Landing) : (s.mergeInto i l).up = s.up := rfl

@[simp] theorem State.mergeInto_landing (i : Nat) (l : Landing) :
    (s.mergeInto i l).landing = s.landing := rfl

@[simp] theorem State.mergeInto_ds (i : Nat) (l : Landing) : (s.mergeInto i l).ds = s.ds := rfl

@[simp] theorem State.mergeInto_log (i : Nat) (l : Landing) : (s.mergeInto i l).log = s.log := rfl

@[simp] theorem State.mergeInto_port (i : Nat) (l : Landing) :
    (s.mergeInto i l).port = s.port := rfl

/-! ### allocate: An allocation (R14). -/

@[simp] theorem State.allocate_pending (l : Landing) : (s.allocate l).pending = s.pending := rfl

@[simp] theorem State.allocate_now (l : Landing) : (s.allocate l).now = s.now := rfl

@[simp] theorem State.allocate_inReset (l : Landing) : (s.allocate l).inReset = s.inReset := rfl

@[simp] theorem State.allocate_os (l : Landing) : (s.allocate l).os = s.os := rfl

@[simp] theorem State.allocate_drain (l : Landing) : (s.allocate l).drain = s.drain := rfl

@[simp] theorem State.allocate_members (l : Landing) : (s.allocate l).members = s.members := rfl

@[simp] theorem State.allocate_journal (l : Landing) :
    (s.allocate l).journal =
      s.journal ++
        [{ member := l.member, page := l.page, image := l.image
           state := if s.memberState l.member = .held then .held else .pending
           attempts := 0, deadline := s.now + ms (s.info l.member).dwellMs, marked := false }] := rfl

@[simp] theorem State.allocate_read (l : Landing) : (s.allocate l).read = s.read := rfl

@[simp] theorem State.allocate_up (l : Landing) : (s.allocate l).up = s.up := rfl

@[simp] theorem State.allocate_landing (l : Landing) : (s.allocate l).landing = s.landing := rfl

@[simp] theorem State.allocate_ds (l : Landing) : (s.allocate l).ds = s.ds := rfl

@[simp] theorem State.allocate_log (l : Landing) : (s.allocate l).log = s.log := rfl

@[simp] theorem State.allocate_port (l : Landing) : (s.allocate l).port = s.port := rfl

/-! ### dropLanding: The landing buffer is emptied (R103). -/

@[simp] theorem State.dropLanding_pending : (s.dropLanding).pending = s.pending := rfl

@[simp] theorem State.dropLanding_now : (s.dropLanding).now = s.now := rfl

@[simp] theorem State.dropLanding_inReset : (s.dropLanding).inReset = s.inReset := rfl

@[simp] theorem State.dropLanding_os : (s.dropLanding).os = s.os := rfl

@[simp] theorem State.dropLanding_drain : (s.dropLanding).drain = s.drain := rfl

@[simp] theorem State.dropLanding_members : (s.dropLanding).members = s.members := rfl

@[simp] theorem State.dropLanding_journal : (s.dropLanding).journal = s.journal := rfl

@[simp] theorem State.dropLanding_read : (s.dropLanding).read = s.read := rfl

@[simp] theorem State.dropLanding_up : (s.dropLanding).up = s.up := rfl

@[simp] theorem State.dropLanding_landing : (s.dropLanding).landing = none := rfl

@[simp] theorem State.dropLanding_ds : (s.dropLanding).ds = s.ds := rfl

@[simp] theorem State.dropLanding_log : (s.dropLanding).log = s.log := rfl

@[simp] theorem State.dropLanding_port : (s.dropLanding).port = s.port := rfl

/-! ### setPart: The part state. -/

@[simp] theorem State.setPart_pending (p : PartState) : (s.setPart p).pending = s.pending := rfl

@[simp] theorem State.setPart_now (p : PartState) : (s.setPart p).now = s.now := rfl

@[simp] theorem State.setPart_inReset (p : PartState) : (s.setPart p).inReset = s.inReset := rfl

@[simp] theorem State.setPart_os_part (p : PartState) : (s.setPart p).os.part = p := rfl

@[simp] theorem State.setPart_os_ret (p : PartState) : (s.setPart p).os.ret = s.os.ret := rfl

@[simp] theorem State.setPart_os_cause (p : PartState) : (s.setPart p).os.cause = s.os.cause := rfl

@[simp] theorem State.setPart_os_ads (p : PartState) : (s.setPart p).os.ads = s.os.ads := rfl

@[simp] theorem State.setPart_os_passHigh (p : PartState) :
    (s.setPart p).os.passHigh = s.os.passHigh := rfl

@[simp] theorem State.setPart_os_mode (p : PartState) : (s.setPart p).os.mode = s.os.mode := rfl

@[simp] theorem State.setPart_os_globals (p : PartState) :
    (s.setPart p).os.globals = s.os.globals := rfl

@[simp] theorem State.setPart_os_start (p : PartState) : (s.setPart p).os.start = s.os.start := rfl

@[simp] theorem State.setPart_os_quiesce (p : PartState) :
    (s.setPart p).os.quiesce = s.os.quiesce := rfl

@[simp] theorem State.setPart_os_everLeft (p : PartState) :
    (s.setPart p).os.everLeft = s.os.everLeft := rfl

@[simp] theorem State.setPart_os_msel (p : PartState) : (s.setPart p).os.msel = s.os.msel := rfl

@[simp] theorem State.setPart_os_mselHigh (p : PartState) :
    (s.setPart p).os.mselHigh = s.os.mselHigh := rfl

@[simp] theorem State.setPart_drain (p : PartState) : (s.setPart p).drain = s.drain := rfl

@[simp] theorem State.setPart_members (p : PartState) : (s.setPart p).members = s.members := rfl

@[simp] theorem State.setPart_journal (p : PartState) : (s.setPart p).journal = s.journal := rfl

@[simp] theorem State.setPart_read (p : PartState) : (s.setPart p).read = s.read := rfl

@[simp] theorem State.setPart_up (p : PartState) : (s.setPart p).up = s.up := rfl

@[simp] theorem State.setPart_landing (p : PartState) : (s.setPart p).landing = s.landing := rfl

@[simp] theorem State.setPart_ds (p : PartState) : (s.setPart p).ds = s.ds := rfl

@[simp] theorem State.setPart_log (p : PartState) : (s.setPart p).log = s.log := rfl

@[simp] theorem State.setPart_port (p : PartState) : (s.setPart p).port = s.port := rfl

/-! ### openEpisode: A flush episode opens (R142). -/

@[simp] theorem State.openEpisode_pending : (s.openEpisode).pending = s.pending := rfl

@[simp] theorem State.openEpisode_now : (s.openEpisode).now = s.now := rfl

@[simp] theorem State.openEpisode_inReset : (s.openEpisode).inReset = s.inReset := rfl

@[simp] theorem State.openEpisode_os : (s.openEpisode).os = s.os := rfl

@[simp] theorem State.openEpisode_drain_drainHigh :
    (s.openEpisode).drain.drainHigh = s.drain.drainHigh := rfl

@[simp] theorem State.openEpisode_drain_pfailAsserted :
    (s.openEpisode).drain.pfailAsserted = s.drain.pfailAsserted := rfl

@[simp] theorem State.openEpisode_drain_episode :
    (s.openEpisode).drain.episode = some { budget := .running, openedAt := s.now } := rfl

@[simp] theorem State.openEpisode_members : (s.openEpisode).members = s.members := rfl

@[simp] theorem State.openEpisode_journal : (s.openEpisode).journal = s.journal := rfl

@[simp] theorem State.openEpisode_read : (s.openEpisode).read = s.read := rfl

@[simp] theorem State.openEpisode_up : (s.openEpisode).up = s.up := rfl

@[simp] theorem State.openEpisode_landing : (s.openEpisode).landing = s.landing := rfl

@[simp] theorem State.openEpisode_ds : (s.openEpisode).ds = s.ds := rfl

@[simp] theorem State.openEpisode_log : (s.openEpisode).log = s.log := rfl

@[simp] theorem State.openEpisode_port : (s.openEpisode).port = s.port := rfl

/-! ### closeEpisode: A flush episode closes (R147). -/

@[simp] theorem State.closeEpisode_pending : (s.closeEpisode).pending = s.pending := rfl

@[simp] theorem State.closeEpisode_now : (s.closeEpisode).now = s.now := rfl

@[simp] theorem State.closeEpisode_inReset : (s.closeEpisode).inReset = s.inReset := rfl

@[simp] theorem State.closeEpisode_os : (s.closeEpisode).os = s.os := rfl

@[simp] theorem State.closeEpisode_drain_drainHigh :
    (s.closeEpisode).drain.drainHigh = s.drain.drainHigh := rfl

@[simp] theorem State.closeEpisode_drain_pfailAsserted :
    (s.closeEpisode).drain.pfailAsserted = s.drain.pfailAsserted := rfl

@[simp] theorem State.closeEpisode_drain_episode : (s.closeEpisode).drain.episode = none := rfl

@[simp] theorem State.closeEpisode_members : (s.closeEpisode).members = s.members := rfl

@[simp] theorem State.closeEpisode_journal : (s.closeEpisode).journal = s.journal := rfl

@[simp] theorem State.closeEpisode_read : (s.closeEpisode).read = s.read := rfl

@[simp] theorem State.closeEpisode_up : (s.closeEpisode).up = s.up := rfl

@[simp] theorem State.closeEpisode_landing : (s.closeEpisode).landing = s.landing := rfl

@[simp] theorem State.closeEpisode_ds : (s.closeEpisode).ds = s.ds := rfl

@[simp] theorem State.closeEpisode_log : (s.closeEpisode).log = s.log := rfl

@[simp] theorem State.closeEpisode_port : (s.closeEpisode).port = s.port := rfl

/-! ### setDrainLevel: The DRAIN level (R137). -/

@[simp] theorem State.setDrainLevel_pending (b : Bool) :
    (s.setDrainLevel b).pending = s.pending := rfl

@[simp] theorem State.setDrainLevel_now (b : Bool) : (s.setDrainLevel b).now = s.now := rfl

@[simp] theorem State.setDrainLevel_inReset (b : Bool) :
    (s.setDrainLevel b).inReset = s.inReset := rfl

@[simp] theorem State.setDrainLevel_os (b : Bool) : (s.setDrainLevel b).os = s.os := rfl

@[simp] theorem State.setDrainLevel_drain_drainHigh (b : Bool) :
    (s.setDrainLevel b).drain.drainHigh = b := rfl

@[simp] theorem State.setDrainLevel_drain_pfailAsserted (b : Bool) :
    (s.setDrainLevel b).drain.pfailAsserted = s.drain.pfailAsserted := rfl

@[simp] theorem State.setDrainLevel_drain_episode (b : Bool) :
    (s.setDrainLevel b).drain.episode = s.drain.episode := rfl

@[simp] theorem State.setDrainLevel_members (b : Bool) :
    (s.setDrainLevel b).members = s.members := rfl

@[simp] theorem State.setDrainLevel_journal (b : Bool) :
    (s.setDrainLevel b).journal = s.journal := rfl

@[simp] theorem State.setDrainLevel_read (b : Bool) : (s.setDrainLevel b).read = s.read := rfl

@[simp] theorem State.setDrainLevel_up (b : Bool) : (s.setDrainLevel b).up = s.up := rfl

@[simp] theorem State.setDrainLevel_landing (b : Bool) :
    (s.setDrainLevel b).landing = s.landing := rfl

@[simp] theorem State.setDrainLevel_ds (b : Bool) : (s.setDrainLevel b).ds = s.ds := rfl

@[simp] theorem State.setDrainLevel_log (b : Bool) : (s.setDrainLevel b).log = s.log := rfl

@[simp] theorem State.setDrainLevel_port (b : Bool) : (s.setDrainLevel b).port = s.port := rfl

/-! ### setPfail: The PFAIL level (R137). -/

@[simp] theorem State.setPfail_pending (b : Bool) : (s.setPfail b).pending = s.pending := rfl

@[simp] theorem State.setPfail_now (b : Bool) : (s.setPfail b).now = s.now := rfl

@[simp] theorem State.setPfail_inReset (b : Bool) : (s.setPfail b).inReset = s.inReset := rfl

@[simp] theorem State.setPfail_os (b : Bool) : (s.setPfail b).os = s.os := rfl

@[simp] theorem State.setPfail_drain_drainHigh (b : Bool) :
    (s.setPfail b).drain.drainHigh = s.drain.drainHigh := rfl

@[simp] theorem State.setPfail_drain_pfailAsserted (b : Bool) :
    (s.setPfail b).drain.pfailAsserted = b := rfl

@[simp] theorem State.setPfail_drain_episode (b : Bool) :
    (s.setPfail b).drain.episode = s.drain.episode := rfl

@[simp] theorem State.setPfail_members (b : Bool) : (s.setPfail b).members = s.members := rfl

@[simp] theorem State.setPfail_journal (b : Bool) : (s.setPfail b).journal = s.journal := rfl

@[simp] theorem State.setPfail_read (b : Bool) : (s.setPfail b).read = s.read := rfl

@[simp] theorem State.setPfail_up (b : Bool) : (s.setPfail b).up = s.up := rfl

@[simp] theorem State.setPfail_landing (b : Bool) : (s.setPfail b).landing = s.landing := rfl

@[simp] theorem State.setPfail_ds (b : Bool) : (s.setPfail b).ds = s.ds := rfl

@[simp] theorem State.setPfail_log (b : Bool) : (s.setPfail b).log = s.log := rfl

@[simp] theorem State.setPfail_port (b : Bool) : (s.setPfail b).port = s.port := rfl

/-! ### setStartAccess: The access of the start sequence. -/

@[simp] theorem State.setStartAccess_pending (a : Access) :
    (s.setStartAccess a).pending = s.pending := rfl

@[simp] theorem State.setStartAccess_now (a : Access) : (s.setStartAccess a).now = s.now := rfl

@[simp] theorem State.setStartAccess_inReset (a : Access) :
    (s.setStartAccess a).inReset = s.inReset := rfl

@[simp] theorem State.setStartAccess_os_part (a : Access) :
    (s.setStartAccess a).os.part = s.os.part := rfl

@[simp] theorem State.setStartAccess_os_ret (a : Access) :
    (s.setStartAccess a).os.ret = s.os.ret := rfl

@[simp] theorem State.setStartAccess_os_cause (a : Access) :
    (s.setStartAccess a).os.cause = s.os.cause := rfl

@[simp] theorem State.setStartAccess_os_ads (a : Access) :
    (s.setStartAccess a).os.ads = s.os.ads := rfl

@[simp] theorem State.setStartAccess_os_passHigh (a : Access) :
    (s.setStartAccess a).os.passHigh = s.os.passHigh := rfl

@[simp] theorem State.setStartAccess_os_mode (a : Access) :
    (s.setStartAccess a).os.mode = s.os.mode := rfl

@[simp] theorem State.setStartAccess_os_globals (a : Access) :
    (s.setStartAccess a).os.globals = s.os.globals := rfl

@[simp] theorem State.setStartAccess_os_quiesce (a : Access) :
    (s.setStartAccess a).os.quiesce = s.os.quiesce := rfl

@[simp] theorem State.setStartAccess_os_everLeft (a : Access) :
    (s.setStartAccess a).os.everLeft = s.os.everLeft := rfl

@[simp] theorem State.setStartAccess_os_msel (a : Access) :
    (s.setStartAccess a).os.msel = s.os.msel := rfl

@[simp] theorem State.setStartAccess_os_mselHigh (a : Access) :
    (s.setStartAccess a).os.mselHigh = s.os.mselHigh := rfl

@[simp] theorem State.setStartAccess_drain (a : Access) :
    (s.setStartAccess a).drain = s.drain := rfl

@[simp] theorem State.setStartAccess_members (a : Access) :
    (s.setStartAccess a).members = s.members := rfl

@[simp] theorem State.setStartAccess_journal (a : Access) :
    (s.setStartAccess a).journal = s.journal := rfl

@[simp] theorem State.setStartAccess_read (a : Access) : (s.setStartAccess a).read = s.read := rfl

@[simp] theorem State.setStartAccess_up (a : Access) : (s.setStartAccess a).up = s.up := rfl

@[simp] theorem State.setStartAccess_landing (a : Access) :
    (s.setStartAccess a).landing = s.landing := rfl

@[simp] theorem State.setStartAccess_ds (a : Access) : (s.setStartAccess a).ds = s.ds := rfl

@[simp] theorem State.setStartAccess_log (a : Access) : (s.setStartAccess a).log = s.log := rfl

@[simp] theorem State.setStartAccess_port (a : Access) : (s.setStartAccess a).port = s.port := rfl

/-! ### departTo: The part leaves STARTING (R165). -/

@[simp] theorem State.departTo_pending (p : PartState) (c : Option PassCause) :
    (s.departTo p c).pending = s.pending := rfl

@[simp] theorem State.departTo_now (p : PartState) (c : Option PassCause) :
    (s.departTo p c).now = s.now := rfl

@[simp] theorem State.departTo_inReset (p : PartState) (c : Option PassCause) :
    (s.departTo p c).inReset = s.inReset := rfl

@[simp] theorem State.departTo_os_part (p : PartState) (c : Option PassCause) :
    (s.departTo p c).os.part = p := rfl

@[simp] theorem State.departTo_os_ret (p : PartState) (c : Option PassCause) :
    (s.departTo p c).os.ret = s.os.ret := rfl

@[simp] theorem State.departTo_os_cause (p : PartState) (c : Option PassCause) :
    (s.departTo p c).os.cause = c := rfl

@[simp] theorem State.departTo_os_ads (p : PartState) (c : Option PassCause) :
    (s.departTo p c).os.ads = s.os.ads := rfl

@[simp] theorem State.departTo_os_passHigh (p : PartState) (c : Option PassCause) :
    (s.departTo p c).os.passHigh = s.os.passHigh := rfl

@[simp] theorem State.departTo_os_mode (p : PartState) (c : Option PassCause) :
    (s.departTo p c).os.mode = s.os.mode := rfl

@[simp] theorem State.departTo_os_globals (p : PartState) (c : Option PassCause) :
    (s.departTo p c).os.globals = s.os.globals := rfl

@[simp] theorem State.departTo_os_start (p : PartState) (c : Option PassCause) :
    (s.departTo p c).os.start = none := rfl

@[simp] theorem State.departTo_os_quiesce (p : PartState) (c : Option PassCause) :
    (s.departTo p c).os.quiesce = s.os.quiesce := rfl

@[simp] theorem State.departTo_os_everLeft (p : PartState) (c : Option PassCause) :
    (s.departTo p c).os.everLeft = true := rfl

@[simp] theorem State.departTo_os_msel (p : PartState) (c : Option PassCause) :
    (s.departTo p c).os.msel = s.os.msel := rfl

@[simp] theorem State.departTo_os_mselHigh (p : PartState) (c : Option PassCause) :
    (s.departTo p c).os.mselHigh = s.os.mselHigh := rfl

@[simp] theorem State.departTo_drain (p : PartState) (c : Option PassCause) :
    (s.departTo p c).drain = s.drain := rfl

@[simp] theorem State.departTo_members (p : PartState) (c : Option PassCause) :
    (s.departTo p c).members = s.members := rfl

@[simp] theorem State.departTo_journal (p : PartState) (c : Option PassCause) :
    (s.departTo p c).journal = s.journal := rfl

@[simp] theorem State.departTo_read (p : PartState) (c : Option PassCause) :
    (s.departTo p c).read = s.read := rfl

@[simp] theorem State.departTo_up (p : PartState) (c : Option PassCause) :
    (s.departTo p c).up = s.up := rfl

@[simp] theorem State.departTo_landing (p : PartState) (c : Option PassCause) :
    (s.departTo p c).landing = s.landing := rfl

@[simp] theorem State.departTo_ds (p : PartState) (c : Option PassCause) :
    (s.departTo p c).ds = s.ds := rfl

@[simp] theorem State.departTo_log (p : PartState) (c : Option PassCause) :
    (s.departTo p c).log = s.log := rfl

@[simp] theorem State.departTo_port (p : PartState) (c : Option PassCause) :
    (s.departTo p c).port = s.port := rfl

/-! ### setJob: The progress of the command in progress. -/

@[simp] theorem State.setJob_pending (j : Job) : (s.setJob j).pending = s.pending := rfl

@[simp] theorem State.setJob_now (j : Job) : (s.setJob j).now = s.now := rfl

@[simp] theorem State.setJob_inReset (j : Job) : (s.setJob j).inReset = s.inReset := rfl

@[simp] theorem State.setJob_os (j : Job) : (s.setJob j).os = s.os := rfl

@[simp] theorem State.setJob_drain (j : Job) : (s.setJob j).drain = s.drain := rfl

@[simp] theorem State.setJob_members (j : Job) : (s.setJob j).members = s.members := rfl

@[simp] theorem State.setJob_journal (j : Job) : (s.setJob j).journal = s.journal := rfl

@[simp] theorem State.setJob_read (j : Job) : (s.setJob j).read = s.read := rfl

@[simp] theorem State.setJob_up (j : Job) : (s.setJob j).up = s.up := rfl

@[simp] theorem State.setJob_landing (j : Job) : (s.setJob j).landing = s.landing := rfl

@[simp] theorem State.setJob_ds (j : Job) : (s.setJob j).ds = s.ds := rfl

@[simp] theorem State.setJob_log (j : Job) : (s.setJob j).log = s.log := rfl

@[simp] theorem State.setJob_port_rx (j : Job) : (s.setJob j).port.rx = s.port.rx := rfl

@[simp] theorem State.setJob_port_cmd (j : Job) :
    (s.setJob j).port.cmd = s.port.cmd.map fun c => { c with job := j } := rfl

@[simp] theorem State.setJob_port_tx (j : Job) : (s.setJob j).port.tx = s.port.tx := rfl

/-! ### startJob: A command that takes time starts (R180). -/

@[simp] theorem State.startJob_pending (c q : Byte) (j : Job) :
    (s.startJob c q j).pending = s.pending := rfl

@[simp] theorem State.startJob_now (c q : Byte) (j : Job) : (s.startJob c q j).now = s.now := rfl

@[simp] theorem State.startJob_inReset (c q : Byte) (j : Job) :
    (s.startJob c q j).inReset = s.inReset := rfl

@[simp] theorem State.startJob_os (c q : Byte) (j : Job) : (s.startJob c q j).os = s.os := rfl

@[simp] theorem State.startJob_drain (c q : Byte) (j : Job) :
    (s.startJob c q j).drain = s.drain := rfl

@[simp] theorem State.startJob_members (c q : Byte) (j : Job) :
    (s.startJob c q j).members = s.members := rfl

@[simp] theorem State.startJob_journal (c q : Byte) (j : Job) :
    (s.startJob c q j).journal = s.journal := rfl

@[simp] theorem State.startJob_read (c q : Byte) (j : Job) : (s.startJob c q j).read = s.read := rfl

@[simp] theorem State.startJob_up (c q : Byte) (j : Job) : (s.startJob c q j).up = s.up := rfl

@[simp] theorem State.startJob_landing (c q : Byte) (j : Job) :
    (s.startJob c q j).landing = s.landing := rfl

@[simp] theorem State.startJob_ds (c q : Byte) (j : Job) : (s.startJob c q j).ds = s.ds := rfl

@[simp] theorem State.startJob_log (c q : Byte) (j : Job) : (s.startJob c q j).log = s.log := rfl

@[simp] theorem State.startJob_port_rx (c q : Byte) (j : Job) :
    (s.startJob c q j).port.rx = s.port.rx := rfl

@[simp] theorem State.startJob_port_cmd (c q : Byte) (j : Job) :
    (s.startJob c q j).port.cmd = some { code := c, seq := q, job := j } := rfl

@[simp] theorem State.startJob_port_tx (c q : Byte) (j : Job) :
    (s.startJob c q j).port.tx = s.port.tx := rfl

/-! ### setRx: The receiver. -/

@[simp] theorem State.setRx_pending (r : Receiver) : (s.setRx r).pending = s.pending := rfl

@[simp] theorem State.setRx_now (r : Receiver) : (s.setRx r).now = s.now := rfl

@[simp] theorem State.setRx_inReset (r : Receiver) : (s.setRx r).inReset = s.inReset := rfl

@[simp] theorem State.setRx_os (r : Receiver) : (s.setRx r).os = s.os := rfl

@[simp] theorem State.setRx_drain (r : Receiver) : (s.setRx r).drain = s.drain := rfl

@[simp] theorem State.setRx_members (r : Receiver) : (s.setRx r).members = s.members := rfl

@[simp] theorem State.setRx_journal (r : Receiver) : (s.setRx r).journal = s.journal := rfl

@[simp] theorem State.setRx_read (r : Receiver) : (s.setRx r).read = s.read := rfl

@[simp] theorem State.setRx_up (r : Receiver) : (s.setRx r).up = s.up := rfl

@[simp] theorem State.setRx_landing (r : Receiver) : (s.setRx r).landing = s.landing := rfl

@[simp] theorem State.setRx_ds (r : Receiver) : (s.setRx r).ds = s.ds := rfl

@[simp] theorem State.setRx_log (r : Receiver) : (s.setRx r).log = s.log := rfl

@[simp] theorem State.setRx_port_rx (r : Receiver) : (s.setRx r).port.rx = r := rfl

@[simp] theorem State.setRx_port_cmd (r : Receiver) : (s.setRx r).port.cmd = s.port.cmd := rfl

@[simp] theorem State.setRx_port_tx (r : Receiver) : (s.setRx r).port.tx = s.port.tx := rfl

end Sys2Proof.Machine
end

