-- ==== Sys2Proof/Laws/Ops.lean ====
section
/-! SUPPORT. One lemma for each shared operation that has more than one outcome: what it can do, and what it
leaves. Frames are said with State.sameBut. -/

namespace Sys2Proof.Machine

/-! ## Frames -/

theorem State.sameBut_refl (s : State) (l : List Part) : s.sameBut s l := by
  intro p _; cases p <;> rfl

theorem State.sameAt_trans {s t u : State} {p : Part} (h : s.sameAt t p) (k : t.sameAt u p) :
    s.sameAt u p := by
  cases p <;> exact Eq.trans k h

theorem State.sameBut_trans {s t u : State} {l : List Part} (h : s.sameBut t l)
    (k : t.sameBut u l) : s.sameBut u l :=
  fun p hp => State.sameAt_trans (h p hp) (k p hp)

theorem State.sameBut_mono {s t : State} {l l' : List Part} (h : s.sameBut t l)
    (sub : ∀ p ∈ l, p ∈ l') : s.sameBut t l' :=
  fun p hp => h p fun hl => hp (sub p hl)

theorem State.sameBut_settle (s : State) : s.sameBut s.settle [] := by
  intro p _; cases p <;> rfl

/-! ## Taking an event -/

/-- Everything that taking an event can do. -/
theorem State.take_next {s t : State} {body : State → Option State} (h : s.take body = .next t) :
    (s.inReset = true ∧ t = s) ∨ (s.inReset = false ∧ body s = none ∧ t = s) ∨
      ∃ u, s.inReset = false ∧ body s = some u ∧ t = u.settle := by
  unfold State.take at h
  split at h
  · cases h; exact .inl ⟨‹_›, rfl⟩
  · rename_i hr
    have hr : s.inReset = false := by simpa using hr
    split at h
    · cases h; exact .inr (.inl ⟨hr, ‹_›, rfl⟩)
    · cases h; exact .inr (.inr ⟨_, hr, ‹_›, rfl⟩)

theorem State.take_some {s u : State} {body : State → Option State} (hr : s.inReset = false)
    (h : body s = some u) : s.take body = .next u.settle := by
  simp [State.take, hr, h]

theorem State.take_none {s : State} {body : State → Option State} (h : body s = none) :
    s.take body = .next s := by
  unfold State.take; split <;> simp [h]

theorem State.take_inReset {s : State} {body : State → Option State} (hr : s.inReset = true) :
    s.take body = .next s := by
  simp [State.take, hr]

/-- Everything that the end of a downstream read can do, where it gives a next state. -/
theorem State.takeRead_next {s t : State} {mine : Request → Bool} {report : ReadReport}
    {body : Holder → State → State} (h : s.takeRead mine report body = .next t) :
    t = s ∨
      ∃ k, s.inReset = false ∧ s.ds.ctl = .busy k ∧ mine k.req = true ∧ t = (body k s).settle := by
  unfold State.takeRead at h
  split at h
  · cases h; exact .inl rfl
  · rename_i hr
    have hr : s.inReset = false := by simpa using hr
    split at h
    · rename_i k hk
      split at h
      · split at h
        · split at h
          · cases h; exact .inr ⟨k, hr, hk, ‹_›, rfl⟩
          · cases h
        · cases h; exact .inr ⟨k, hr, hk, ‹_›, rfl⟩
      · cases h; exact .inl rfl
    · cases h; exact .inl rfl

/-! ## The fault log (R154) -/

theorem pushRecord_ne_nil (r : FaultRecord) (l : List FaultRecord) : pushRecord r l ≠ [] := by
  cases l <;> simp [pushRecord]; split <;> simp

/-- The ring keeps its bound (R152). -/
theorem pushRecord_length {r : FaultRecord} {l : List FaultRecord} (h : l.length ≤ 16) :
    (pushRecord r l).length ≤ 16 := by
  cases l with
  | nil => simp [pushRecord]
  | cons a l =>
    have h : l.length + 1 ≤ 16 := h
    by_cases k : l.length + 1 < 16
    · simp [pushRecord, Config.ringSlots, k]
    · simp [pushRecord, Config.ringSlots, k, h]

/-- The youngest record is the one written, unread (R154). -/
theorem pushRecord_last (r : FaultRecord) (l : List FaultRecord) :
    ∃ lost, (pushRecord r l).getLast? = some { r with lost := lost } := by
  cases l with
  | nil => exact ⟨false, rfl⟩
  | cons a l =>
    simp only [pushRecord]
    split
    · exact ⟨false, by rw [List.getLast?_append]; rfl⟩
    · exact ⟨!a.read, by rw [List.getLast?_append]; rfl⟩

/-! ## Requests (R120) -/

theorem State.raise_sameBut (s : State) (r : Request) : s.sameBut (s.raise r) [.ds] := by
  intro p hp; unfold State.raise; split <;> cases p <;> simp_all [State.sameAt]

@[simp] theorem State.raise_ds_ctl (s : State) (r : Request) : (s.raise r).ds.ctl = s.ds.ctl := by
  unfold State.raise; split <;> rfl

@[simp] theorem State.raise_ds_starvation (s : State) (r : Request) :
    (s.raise r).ds.starvation = s.ds.starvation := by
  unfold State.raise; split <;> rfl

@[simp] theorem State.raise_ds_drive (s : State) (r : Request) :
    (s.raise r).ds.drive = s.ds.drive := by
  unfold State.raise; split <;> rfl

@[simp] theorem State.raise_ds_moved (s : State) (r : Request) :
    (s.raise r).ds.moved = s.ds.moved := by
  unfold State.raise; split <;> rfl

@[simp] theorem State.raise_ds_closing (s : State) (r : Request) :
    (s.raise r).ds.closing = s.ds.closing := by
  unfold State.raise; split <;> rfl

/-- A raised request waits, and no other joins or leaves. -/
@[simp] theorem State.mem_raise (s : State) (r q : Request) :
    q ∈ (s.raise r).ds.waiting ↔ q = r ∨ q ∈ s.ds.waiting := by
  unfold State.raise
  split
  · rename_i h
    simp only [List.contains_eq_mem, decide_eq_true_eq] at h
    exact ⟨.inr, fun k => k.elim (fun e => e ▸ h) id⟩
  · simp only [List.mem_append, List.mem_singleton]; tauto

theorem State.raiseStep_sameBut (s : State) (m : MemberIx) : s.sameBut (s.raiseStep m) [.ds] := by
  unfold State.raiseStep
  split
  · exact s.sameBut_refl _
  · split
    · exact s.sameBut_refl _
    · exact s.raise_sameBut _

theorem State.withdraw_sameBut (s : State) (r : Request) : s.sameBut (s.withdraw r) [.ds] := by
  intro p hp; cases p <;> simp_all [State.sameAt]

theorem State.withdrawSlot_sameBut (s : State) (m : MemberIx) :
    s.sameBut (s.withdrawSlot m) [.ds] := by
  intro p hp; unfold State.withdrawSlot; cases p <;> simp_all [State.sameAt]

/-- No request of the slot waits after it (R47). -/
theorem State.withdrawSlot_waiting (s : State) (m : MemberIx) (st : Stage) :
    st.request m ∉ (s.withdrawSlot m).ds.waiting := by
  cases st <;> simp [State.withdrawSlot, Stage.request]

/-! ## The member table (R81, R89) -/

/-- A member's record, state and pointer are read off the member table. -/
theorem State.info_congr {s t : State} (h : t.members = s.members) (m : MemberIx) :
    t.info m = s.info m := by
  simp only [State.info, h]

theorem State.memberState_congr {s t : State} (h : t.members = s.members) (m : MemberIx) :
    t.memberState m = s.memberState m := by
  simp only [State.memberState, h]

theorem State.pointer_congr {s t : State} (h : t.members = s.members) (m : MemberIx) :
    t.pointer m = s.pointer m := by
  simp only [State.pointer, h]

/-- A member's slot is read off the journal (R29). -/
theorem State.slotEntry_congr {s t : State} (h : t.journal = s.journal) (m : MemberIx) :
    t.slotEntry m = s.slotEntry m := by
  simp only [State.slotEntry, h]

theorem State.slot_congr {s t : State} (h : t.journal = s.journal) (m : MemberIx) :
    t.slot m = s.slot m := by
  simp only [State.slot, State.slotEntry, h]

/-- The overlay is read off the journal and the records (R62). -/
theorem State.overlayByte_congr {s t : State} (h : t.journal = s.journal)
    (k : t.members = s.members) (m : MemberIx) (a : MemberAddr) :
    t.overlayByte m a = s.overlayByte m a := by
  unfold State.overlayByte; rw [h, State.info_congr k m]

theorem modify_member {l : List Member} {m k : MemberIx} {f : Member → Member} (h : k ≠ m) :
    (l.modify m.val f)[k.val]? = l[k.val]? := by
  have e : ¬m.val = k.val := fun e => h (Fin.ext e.symm)
  rw [List.getElem?_modify]; cases l[k.val]? <;> simp [e]

@[simp] theorem State.info_setMember (s : State) (m k : MemberIx) (st : MemberState) :
    (s.setMember m st).info k = s.info k := by
  simp only [State.info, State.setMember_members, List.getElem?_modify]
  cases s.members[k.val]? <;> simp; split <;> rfl

@[simp] theorem State.pointer_setMember (s : State) (m k : MemberIx) (st : MemberState) :
    (s.setMember m st).pointer k = s.pointer k := by
  simp only [State.pointer, State.setMember_members, List.getElem?_modify]
  cases s.members[k.val]? <;> simp; split <;> rfl

@[simp] theorem State.info_setPointer (s : State) (m k : MemberIx) (a : MemberAddr) :
    (s.setPointer m a).info k = s.info k := by
  simp only [State.info, State.setPointer_members, List.getElem?_modify]
  cases s.members[k.val]? <;> simp; split <;> rfl

@[simp] theorem State.memberState_setPointer (s : State) (m k : MemberIx) (a : MemberAddr) :
    (s.setPointer m a).memberState k = s.memberState k := by
  simp only [State.memberState, State.setPointer_members, List.getElem?_modify]
  cases s.members[k.val]? <;> simp; split <;> rfl

/-- A member of the table has the state it is given (R83). -/
theorem State.memberState_setMember {s : State} {m : MemberIx} (h : m.val < s.members.length)
    (st : MemberState) : (s.setMember m st).memberState m = st := by
  simp [State.memberState, h]

theorem State.memberState_setMember_ne {s : State} {m k : MemberIx} (h : k ≠ m)
    (st : MemberState) : (s.setMember m st).memberState k = s.memberState k := by
  simp only [State.memberState, State.setMember_members, modify_member h]

/-- A member of the table has the pointer it is given (R89). -/
theorem State.pointer_setPointer {s : State} {m : MemberIx} (h : m.val < s.members.length)
    (a : MemberAddr) : (s.setPointer m a).pointer m = a := by
  simp [State.pointer, h]

theorem State.pointer_setPointer_ne {s : State} {m k : MemberIx} (h : k ≠ m)
    (a : MemberAddr) : (s.setPointer m a).pointer k = s.pointer k := by
  simp only [State.pointer, State.setPointer_members, modify_member h]

/-! ## CYCLE (R60, R86) -/

theorem State.enterCycle_sameBut (s : State) (m : MemberIx) :
    s.sameBut (s.enterCycle m) [.members, .read, .ds] := by
  intro p hp; unfold State.enterCycle; dsimp only
  split
  · split <;> cases p <;> simp_all [State.sameAt]
  · cases p <;> simp_all [State.sameAt]

theorem State.leaveCycle_sameBut (s : State) (m : MemberIx) :
    s.sameBut (s.leaveCycle m) [.members, .read, .ds] := by
  unfold State.leaveCycle; dsimp only
  split
  · have h : s.sameBut (s.setMember m .online) [.members, .read, .ds] := by
      intro p hp; cases p <;> simp_all [State.sameAt]
    split
    · split
      · refine State.sameBut_trans h (State.sameBut_trans (t := (s.setMember m .online).setFetch .waitingGrant) ?_ ?_)
        · intro p hp; cases p <;> simp_all [State.sameAt]
        · exact State.sameBut_mono (State.raise_sameBut _ _) (by simp)
      · exact h
    · exact h
  · exact s.sameBut_refl _

/-! ## Attempts (R47 to R50) -/

theorem State.exhaust_sameBut (s : State) (m : MemberIx) (page : Nat) :
    s.sameBut (s.exhaust m page) [.journal, .members, .log] := by
  intro p hp; unfold State.exhaust; cases p <;> simp_all [State.sameAt]

theorem State.updateSlotEntry_sameBut (s : State) (m : MemberIx) (f : Flight → Entry → Entry) :
    s.sameBut (s.updateSlotEntry m f) [.journal] := by
  intro p hp; cases p <;> simp_all [State.sameAt]

theorem State.retry_sameBut (s : State) (m : MemberIx) : s.sameBut (s.retry m) [.journal, .ds] := by
  unfold State.retry
  exact State.sameBut_trans (State.sameBut_mono (State.updateSlotEntry_sameBut _ _ _) (by simp))
    (State.sameBut_mono (State.raiseStep_sameBut _ _) (by simp))

/-- A failed attempt changes the journal, the log, the member's state, the read's fetch and the waiting
set, and nothing else (R47). -/
theorem State.failAttempt_sameBut (s : State) (m : MemberIx) (c : Cause) :
    s.sameBut (s.failAttempt m c) [.journal, .log, .members, .read, .ds] := by
  unfold State.failAttempt; dsimp only
  split
  · exact s.sameBut_refl _
  · rename_i e _
    have a := State.sameBut_mono (l' := [.journal, .log, .members, .read, .ds])
      (s.updateSlotEntry_sameBut m fun _ e => { e with attempts := e.attempts + 1 }) (by simp)
    have b : ∀ u : State, u.sameBut (u.record .attemptFailed (some m) (some e.page) c.code)
        [.journal, .log, .members, .read, .ds] := by
      intro u p hp; cases p <;> simp_all [State.sameAt]
    have d : ∀ u : State, u.sameBut ((u.leaveCycle m).withdrawSlot m)
        [.journal, .log, .members, .read, .ds] := fun u =>
      State.sameBut_trans (State.sameBut_mono (u.leaveCycle_sameBut m) (by simp))
        (State.sameBut_mono (State.withdrawSlot_sameBut _ m) (by simp))
    have k := State.sameBut_trans (State.sameBut_trans a (b _)) (d _)
    split
    · exact State.sameBut_trans k (State.sameBut_mono (State.retry_sameBut _ m) (by simp))
    · exact State.sameBut_trans k (State.sameBut_mono (State.exhaust_sameBut _ m _) (by simp))

theorem State.busyRefused_sameBut (s : State) (m : MemberIx) (t : Micros) (c : Cause) :
    s.sameBut (s.busyRefused m t c) [.journal, .log, .members, .read, .ds] := by
  unfold State.busyRefused; dsimp only
  split
  · exact s.sameBut_refl _
  · split
    · intro p hp; cases p <;> simp_all [State.sameAt]
    · exact s.failAttempt_sameBut m c

theorem State.retire_sameBut (s : State) (m : MemberIx) :
    s.sameBut (s.retire m) [.read, .journal] := by
  intro p hp; unfold State.retire; split <;> cases p <;> simp_all [State.sameAt]

/-! ## Merges -/

theorem joinMerged_length (sel : Entry → Bool) (l : List Entry) (e : Entry) :
    (joinMerged sel l e).length ≤ l.length + 1 := by
  unfold joinMerged; split
  · split <;> simp
  · simp

/-- A same-page merge never lengthens the list (R16, R24). -/
theorem mergeSamePage_length (sel : Entry → Bool) (l : List Entry) :
    (mergeSamePage sel l).length ≤ l.length := by
  have h : ∀ (l done : List Entry),
      (l.foldl (joinMerged sel) done).length ≤ done.length + l.length := by
    intro l
    induction l with
    | nil => simp
    | cons e l ih =>
      intro done
      have a := ih (joinMerged sel done e)
      have b := joinMerged_length sel done e
      simp only [List.foldl_cons, List.length_cons]; omega
  simpa [mergeSamePage] using h l []

theorem State.handOver_sameBut (s : State) (l : Landing) : s.sameBut (s.handOver l) [.journal] := by
  intro p hp; unfold State.handOver; split <;> cases p <;> simp_all [State.sameAt]

/-- A hand-over adds one entry at most (R10). -/
theorem State.handOver_length (s : State) (l : Landing) :
    (s.handOver l).journal.length ≤ s.journal.length + 1 := by
  unfold State.handOver; split <;> simp

/-! ## The open read (R58, R62, R73) -/

theorem State.underrun_sameBut (s : State) (d : Nat) :
    s.sameBut (s.underrun d) [.log, .read, .up] := by
  intro p hp; unfold State.underrun; dsimp only
  split
  · exact s.sameBut_refl _ p hp
  · split <;> cases p <;> simp_all [State.sameAt]

theorem State.serveDue_sameBut (s : State) : s.sameBut s.serveDue [.up, .read, .log, .ds] := by
  unfold State.serveDue State.serveByte State.fetchFailed; dsimp only
  have a : ∀ b, s.sameBut (s.alsoSay [.byte b]).startIdle [.up, .read, .log, .ds] := by
    intro b p hp; cases p <;> simp_all [State.sameAt]
  split
  · exact s.sameBut_refl _
  · split
    · exact a _
    · split
      · exact a _
      · split
        · exact a _
        · split
          · exact State.sameBut_mono (s.underrun_sameBut 2) (by simp)
          · split
            · intro p hp; cases p <;> simp_all [State.sameAt]
            · refine State.sameBut_trans ?_ (State.sameBut_mono (State.raise_sameBut _ _) (by simp))
              intro p hp; cases p <;> simp_all [State.sameAt]

theorem State.raiseHeldIssue_sameBut (s : State) (m : MemberIx) :
    s.sameBut (s.raiseHeldIssue m) [.ds] := by
  unfold State.raiseHeldIssue
  split
  · split
    · exact s.raiseStep_sameBut m
    · exact s.sameBut_refl _
  · exact s.sameBut_refl _

theorem State.closeRead_sameBut (s : State) : s.sameBut s.closeRead [.read, .ds] := by
  unfold State.closeRead
  split
  · exact s.sameBut_refl _
  · refine State.sameBut_trans ?_ (State.sameBut_mono (State.raiseHeldIssue_sameBut _ _) (by simp))
    intro p hp; cases p <;> simp_all [State.sameAt]

/-! ## Writes, the flush and DOZE -/

theorem State.endAborted_sameBut (s : State) (w : OpenWrite) :
    s.sameBut (s.endAborted w) [.log] := by
  intro p hp; unfold State.endAborted
  split
  · split <;> cases p <;> simp_all [State.sameAt]
  · exact s.sameBut_refl _ p hp

theorem State.abortWrite_sameBut (s : State) : s.sameBut s.abortWrite [.up] := by
  intro p hp; unfold State.abortWrite
  split
  · split <;> cases p <;> simp_all [State.sameAt]
  · exact s.sameBut_refl _ p hp

theorem State.enterFlush_sameBut (s : State) :
    s.sameBut s.enterFlush [.os, .journal, .drain, .up] := by
  unfold State.enterFlush
  refine State.sameBut_trans ?_ (State.sameBut_mono (State.abortWrite_sameBut _) (by simp))
  intro p hp; cases p <;> simp_all [State.sameAt]

theorem State.wake_sameBut (s : State) : s.sameBut s.wake [.os] := by
  intro p hp; unfold State.wake; split <;> cases p <;> simp_all [State.sameAt]

/-! ## The port (R181) -/

theorem State.finish_sameBut (s : State) (st : Status) (pl : List Byte) :
    s.sameBut (s.finish st pl) [.port] := by
  intro p hp; unfold State.finish; split <;> cases p <;> simp_all [State.sameAt]

/-- A command in progress that is answered: its response is composed (R181). -/
theorem State.finish_port {s : State} {c : Command} (h : s.port.cmd = some c) (st : Status)
    (pl : List Byte) : (s.finish st pl).port = s.port.ended c st pl := by
  simp [State.finish, h, Port.ended]

/-! ## The end of a relay downstream (R126) -/

/-- What the end of a relay's downstream side makes of the controller, by the abort mark. -/
theorem State.endDownstream_ds (s : State) (r : OpenRelay) :
    (s.endDownstream r).ds =
      match r.mark with
      | .failed => s.ds
      | .prot => { s.ds with ctl := .free, closing := true }
      | .clear | .pfail =>
        { (s.follow [.stop, .release]).ds with ctl := .free, closing := true } := by
  unfold State.endDownstream; cases r.mark <;> rfl

theorem State.endDownstream_sameBut (s : State) (r : OpenRelay) :
    s.sameBut (s.endDownstream r) [.ds] := by
  intro p hp; unfold State.endDownstream; cases r.mark <;> cases p <;> simp_all [State.sameAt]

/-! ## The member that is probed next (R84) -/

/-- The member probed next is the first journaled one from the index. -/
theorem State.nextProbed_some {s : State} {n : Nat} {k : MemberIx} (h : s.nextProbed n = some k) :
    n ≤ k.val ∧ (s.info k).journaled = true ∧
      ∀ j : MemberIx, n ≤ j.val → j < k → (s.info j).journaled = false := by
  unfold State.nextProbed at h
  have h1 := List.find?_some h
  simp only [Bool.and_eq_true, decide_eq_true_eq] at h1
  refine ⟨h1.1, ?_, fun j hj hjk => ?_⟩
  · simp only [State.info]; cases e : s.members[k.val]? <;> simp_all
  · rw [List.find?_eq_some_iff_getElem] at h
    obtain ⟨_, i, hi, he, hn⟩ := h
    simp only [List.getElem_finRange, Fin.cast_mk] at he
    have hki : k.val = i := by rw [← he]
    have := hn j.val (by have : j.val < k.val := hjk; omega)
    simp only [State.info]; cases e : s.members[j.val]? <;> simp_all [MemberRec.absent]

/-- Where none is probed next, no member from the index is journaled. -/
theorem State.nextProbed_none {s : State} {n : Nat} (h : s.nextProbed n = none) (j : MemberIx)
    (hj : n ≤ j.val) : (s.info j).journaled = false := by
  unfold State.nextProbed at h
  rw [List.find?_eq_none] at h
  have := h j (List.mem_finRange j)
  simp only [State.info]
  cases e : s.members[j.val]? <;> simp_all [MemberRec.absent]

end Sys2Proof.Machine
end

