-- ==== Sys2Proof/Laws/Fields.lean ====
section
/-! SUPPORT. The field lemmas of the shared operations that have more than one outcome: each field that the
operation leaves, read off the operation's frame (Laws/Ops.lean). -/

namespace Sys2Proof.Machine

variable (s : State)

@[simp] theorem State.raise_pending (r : Request) : (s.raise r).pending = s.pending :=
  s.raise_sameBut r .pending (by simp)

@[simp] theorem State.raise_now (r : Request) : (s.raise r).now = s.now :=
  s.raise_sameBut r .now (by simp)

@[simp] theorem State.raise_inReset (r : Request) : (s.raise r).inReset = s.inReset :=
  s.raise_sameBut r .inReset (by simp)

@[simp] theorem State.raise_os (r : Request) : (s.raise r).os = s.os := by
  unfold State.raise; split <;> rfl

@[simp] theorem State.raise_drain (r : Request) : (s.raise r).drain = s.drain :=
  s.raise_sameBut r .drain (by simp)

@[simp] theorem State.raise_members (r : Request) : (s.raise r).members = s.members :=
  s.raise_sameBut r .members (by simp)

@[simp] theorem State.raise_journal (r : Request) : (s.raise r).journal = s.journal :=
  s.raise_sameBut r .journal (by simp)

@[simp] theorem State.raise_read (r : Request) : (s.raise r).read = s.read :=
  s.raise_sameBut r .read (by simp)

@[simp] theorem State.raise_up (r : Request) : (s.raise r).up = s.up :=
  s.raise_sameBut r .up (by simp)

@[simp] theorem State.raise_landing (r : Request) : (s.raise r).landing = s.landing :=
  s.raise_sameBut r .landing (by simp)

@[simp] theorem State.raise_log (r : Request) : (s.raise r).log = s.log :=
  s.raise_sameBut r .log (by simp)

@[simp] theorem State.raise_port (r : Request) : (s.raise r).port = s.port :=
  s.raise_sameBut r .port (by simp)

@[simp] theorem State.raiseStep_pending (m : MemberIx) : (s.raiseStep m).pending = s.pending :=
  s.raiseStep_sameBut m .pending (by simp)

@[simp] theorem State.raiseStep_now (m : MemberIx) : (s.raiseStep m).now = s.now :=
  s.raiseStep_sameBut m .now (by simp)

@[simp] theorem State.raiseStep_inReset (m : MemberIx) : (s.raiseStep m).inReset = s.inReset :=
  s.raiseStep_sameBut m .inReset (by simp)

@[simp] theorem State.raiseStep_os (m : MemberIx) : (s.raiseStep m).os = s.os := by
  unfold State.raiseStep; repeat' split
  all_goals simp

@[simp] theorem State.raiseStep_drain (m : MemberIx) : (s.raiseStep m).drain = s.drain :=
  s.raiseStep_sameBut m .drain (by simp)

@[simp] theorem State.raiseStep_members (m : MemberIx) : (s.raiseStep m).members = s.members :=
  s.raiseStep_sameBut m .members (by simp)

@[simp] theorem State.raiseStep_journal (m : MemberIx) : (s.raiseStep m).journal = s.journal :=
  s.raiseStep_sameBut m .journal (by simp)

@[simp] theorem State.raiseStep_read (m : MemberIx) : (s.raiseStep m).read = s.read :=
  s.raiseStep_sameBut m .read (by simp)

@[simp] theorem State.raiseStep_up (m : MemberIx) : (s.raiseStep m).up = s.up :=
  s.raiseStep_sameBut m .up (by simp)

@[simp] theorem State.raiseStep_landing (m : MemberIx) : (s.raiseStep m).landing = s.landing :=
  s.raiseStep_sameBut m .landing (by simp)

@[simp] theorem State.raiseStep_log (m : MemberIx) : (s.raiseStep m).log = s.log :=
  s.raiseStep_sameBut m .log (by simp)

@[simp] theorem State.raiseStep_port (m : MemberIx) : (s.raiseStep m).port = s.port :=
  s.raiseStep_sameBut m .port (by simp)

@[simp] theorem State.withdrawSlot_pending (m : MemberIx) :
    (s.withdrawSlot m).pending = s.pending :=
  s.withdrawSlot_sameBut m .pending (by simp)

@[simp] theorem State.withdrawSlot_now (m : MemberIx) : (s.withdrawSlot m).now = s.now :=
  s.withdrawSlot_sameBut m .now (by simp)

@[simp] theorem State.withdrawSlot_inReset (m : MemberIx) :
    (s.withdrawSlot m).inReset = s.inReset :=
  s.withdrawSlot_sameBut m .inReset (by simp)

@[simp] theorem State.withdrawSlot_os (m : MemberIx) : (s.withdrawSlot m).os = s.os := by
  simp [State.withdrawSlot]

@[simp] theorem State.withdrawSlot_drain (m : MemberIx) : (s.withdrawSlot m).drain = s.drain :=
  s.withdrawSlot_sameBut m .drain (by simp)

@[simp] theorem State.withdrawSlot_members (m : MemberIx) :
    (s.withdrawSlot m).members = s.members :=
  s.withdrawSlot_sameBut m .members (by simp)

@[simp] theorem State.withdrawSlot_journal (m : MemberIx) :
    (s.withdrawSlot m).journal = s.journal :=
  s.withdrawSlot_sameBut m .journal (by simp)

@[simp] theorem State.withdrawSlot_read (m : MemberIx) : (s.withdrawSlot m).read = s.read :=
  s.withdrawSlot_sameBut m .read (by simp)

@[simp] theorem State.withdrawSlot_up (m : MemberIx) : (s.withdrawSlot m).up = s.up :=
  s.withdrawSlot_sameBut m .up (by simp)

@[simp] theorem State.withdrawSlot_landing (m : MemberIx) :
    (s.withdrawSlot m).landing = s.landing :=
  s.withdrawSlot_sameBut m .landing (by simp)

@[simp] theorem State.withdrawSlot_log (m : MemberIx) : (s.withdrawSlot m).log = s.log :=
  s.withdrawSlot_sameBut m .log (by simp)

@[simp] theorem State.withdrawSlot_port (m : MemberIx) : (s.withdrawSlot m).port = s.port :=
  s.withdrawSlot_sameBut m .port (by simp)

@[simp] theorem State.enterCycle_pending (m : MemberIx) : (s.enterCycle m).pending = s.pending :=
  s.enterCycle_sameBut m .pending (by simp)

@[simp] theorem State.enterCycle_now (m : MemberIx) : (s.enterCycle m).now = s.now :=
  s.enterCycle_sameBut m .now (by simp)

@[simp] theorem State.enterCycle_inReset (m : MemberIx) : (s.enterCycle m).inReset = s.inReset :=
  s.enterCycle_sameBut m .inReset (by simp)

@[simp] theorem State.enterCycle_os (m : MemberIx) : (s.enterCycle m).os = s.os := by
  unfold State.enterCycle; dsimp only; repeat' split
  all_goals simp

@[simp] theorem State.enterCycle_drain (m : MemberIx) : (s.enterCycle m).drain = s.drain :=
  s.enterCycle_sameBut m .drain (by simp)

@[simp] theorem State.enterCycle_journal (m : MemberIx) : (s.enterCycle m).journal = s.journal :=
  s.enterCycle_sameBut m .journal (by simp)

@[simp] theorem State.enterCycle_up (m : MemberIx) : (s.enterCycle m).up = s.up :=
  s.enterCycle_sameBut m .up (by simp)

@[simp] theorem State.enterCycle_landing (m : MemberIx) : (s.enterCycle m).landing = s.landing :=
  s.enterCycle_sameBut m .landing (by simp)

@[simp] theorem State.enterCycle_log (m : MemberIx) : (s.enterCycle m).log = s.log :=
  s.enterCycle_sameBut m .log (by simp)

@[simp] theorem State.enterCycle_port (m : MemberIx) : (s.enterCycle m).port = s.port :=
  s.enterCycle_sameBut m .port (by simp)

@[simp] theorem State.leaveCycle_pending (m : MemberIx) : (s.leaveCycle m).pending = s.pending :=
  s.leaveCycle_sameBut m .pending (by simp)

@[simp] theorem State.leaveCycle_now (m : MemberIx) : (s.leaveCycle m).now = s.now :=
  s.leaveCycle_sameBut m .now (by simp)

@[simp] theorem State.leaveCycle_inReset (m : MemberIx) : (s.leaveCycle m).inReset = s.inReset :=
  s.leaveCycle_sameBut m .inReset (by simp)

@[simp] theorem State.leaveCycle_os (m : MemberIx) : (s.leaveCycle m).os = s.os := by
  unfold State.leaveCycle; dsimp only; repeat' split
  all_goals simp

@[simp] theorem State.leaveCycle_drain (m : MemberIx) : (s.leaveCycle m).drain = s.drain :=
  s.leaveCycle_sameBut m .drain (by simp)

@[simp] theorem State.leaveCycle_journal (m : MemberIx) : (s.leaveCycle m).journal = s.journal :=
  s.leaveCycle_sameBut m .journal (by simp)

@[simp] theorem State.leaveCycle_up (m : MemberIx) : (s.leaveCycle m).up = s.up :=
  s.leaveCycle_sameBut m .up (by simp)

@[simp] theorem State.leaveCycle_landing (m : MemberIx) : (s.leaveCycle m).landing = s.landing :=
  s.leaveCycle_sameBut m .landing (by simp)

@[simp] theorem State.leaveCycle_log (m : MemberIx) : (s.leaveCycle m).log = s.log :=
  s.leaveCycle_sameBut m .log (by simp)

@[simp] theorem State.leaveCycle_port (m : MemberIx) : (s.leaveCycle m).port = s.port :=
  s.leaveCycle_sameBut m .port (by simp)

@[simp] theorem State.exhaust_pending (m : MemberIx) (p : Nat) :
    (s.exhaust m p).pending = s.pending :=
  s.exhaust_sameBut m p .pending (by simp)

@[simp] theorem State.exhaust_now (m : MemberIx) (p : Nat) : (s.exhaust m p).now = s.now :=
  s.exhaust_sameBut m p .now (by simp)

@[simp] theorem State.exhaust_inReset (m : MemberIx) (p : Nat) :
    (s.exhaust m p).inReset = s.inReset :=
  s.exhaust_sameBut m p .inReset (by simp)

@[simp] theorem State.exhaust_os (m : MemberIx) (p : Nat) : (s.exhaust m p).os = s.os := by
  simp [State.exhaust]

@[simp] theorem State.exhaust_drain (m : MemberIx) (p : Nat) : (s.exhaust m p).drain = s.drain :=
  s.exhaust_sameBut m p .drain (by simp)

@[simp] theorem State.exhaust_read (m : MemberIx) (p : Nat) : (s.exhaust m p).read = s.read :=
  s.exhaust_sameBut m p .read (by simp)

@[simp] theorem State.exhaust_up (m : MemberIx) (p : Nat) : (s.exhaust m p).up = s.up :=
  s.exhaust_sameBut m p .up (by simp)

@[simp] theorem State.exhaust_landing (m : MemberIx) (p : Nat) :
    (s.exhaust m p).landing = s.landing :=
  s.exhaust_sameBut m p .landing (by simp)

@[simp] theorem State.exhaust_ds (m : MemberIx) (p : Nat) : (s.exhaust m p).ds = s.ds :=
  s.exhaust_sameBut m p .ds (by simp)

@[simp] theorem State.exhaust_port (m : MemberIx) (p : Nat) : (s.exhaust m p).port = s.port :=
  s.exhaust_sameBut m p .port (by simp)

@[simp] theorem State.retry_pending (m : MemberIx) : (s.retry m).pending = s.pending :=
  s.retry_sameBut m .pending (by simp)

@[simp] theorem State.retry_now (m : MemberIx) : (s.retry m).now = s.now :=
  s.retry_sameBut m .now (by simp)

@[simp] theorem State.retry_inReset (m : MemberIx) : (s.retry m).inReset = s.inReset :=
  s.retry_sameBut m .inReset (by simp)

@[simp] theorem State.retry_os (m : MemberIx) : (s.retry m).os = s.os := by
  simp [State.retry]

@[simp] theorem State.retry_drain (m : MemberIx) : (s.retry m).drain = s.drain :=
  s.retry_sameBut m .drain (by simp)

@[simp] theorem State.retry_members (m : MemberIx) : (s.retry m).members = s.members :=
  s.retry_sameBut m .members (by simp)

@[simp] theorem State.retry_read (m : MemberIx) : (s.retry m).read = s.read :=
  s.retry_sameBut m .read (by simp)

@[simp] theorem State.retry_up (m : MemberIx) : (s.retry m).up = s.up :=
  s.retry_sameBut m .up (by simp)

@[simp] theorem State.retry_landing (m : MemberIx) : (s.retry m).landing = s.landing :=
  s.retry_sameBut m .landing (by simp)

@[simp] theorem State.retry_log (m : MemberIx) : (s.retry m).log = s.log :=
  s.retry_sameBut m .log (by simp)

@[simp] theorem State.retry_port (m : MemberIx) : (s.retry m).port = s.port :=
  s.retry_sameBut m .port (by simp)

@[simp] theorem State.failAttempt_pending (m : MemberIx) (c : Cause) :
    (s.failAttempt m c).pending = s.pending :=
  s.failAttempt_sameBut m c .pending (by simp)

@[simp] theorem State.failAttempt_now (m : MemberIx) (c : Cause) :
    (s.failAttempt m c).now = s.now :=
  s.failAttempt_sameBut m c .now (by simp)

@[simp] theorem State.failAttempt_inReset (m : MemberIx) (c : Cause) :
    (s.failAttempt m c).inReset = s.inReset :=
  s.failAttempt_sameBut m c .inReset (by simp)

@[simp] theorem State.failAttempt_os (m : MemberIx) (c : Cause) : (s.failAttempt m c).os = s.os := by
  unfold State.failAttempt; dsimp only; repeat' split
  all_goals simp

@[simp] theorem State.failAttempt_drain (m : MemberIx) (c : Cause) :
    (s.failAttempt m c).drain = s.drain :=
  s.failAttempt_sameBut m c .drain (by simp)

@[simp] theorem State.failAttempt_up (m : MemberIx) (c : Cause) : (s.failAttempt m c).up = s.up :=
  s.failAttempt_sameBut m c .up (by simp)

@[simp] theorem State.failAttempt_landing (m : MemberIx) (c : Cause) :
    (s.failAttempt m c).landing = s.landing :=
  s.failAttempt_sameBut m c .landing (by simp)

@[simp] theorem State.failAttempt_port (m : MemberIx) (c : Cause) :
    (s.failAttempt m c).port = s.port :=
  s.failAttempt_sameBut m c .port (by simp)

@[simp] theorem State.busyRefused_pending (m : MemberIx) (t : Micros) (c : Cause) :
    (s.busyRefused m t c).pending = s.pending :=
  s.busyRefused_sameBut m t c .pending (by simp)

@[simp] theorem State.busyRefused_now (m : MemberIx) (t : Micros) (c : Cause) :
    (s.busyRefused m t c).now = s.now :=
  s.busyRefused_sameBut m t c .now (by simp)

@[simp] theorem State.busyRefused_inReset (m : MemberIx) (t : Micros) (c : Cause) :
    (s.busyRefused m t c).inReset = s.inReset :=
  s.busyRefused_sameBut m t c .inReset (by simp)

@[simp] theorem State.busyRefused_os (m : MemberIx) (t : Micros) (c : Cause) :
    (s.busyRefused m t c).os = s.os := by
  unfold State.busyRefused; dsimp only; repeat' split
  all_goals simp

@[simp] theorem State.busyRefused_drain (m : MemberIx) (t : Micros) (c : Cause) :
    (s.busyRefused m t c).drain = s.drain :=
  s.busyRefused_sameBut m t c .drain (by simp)

@[simp] theorem State.busyRefused_up (m : MemberIx) (t : Micros) (c : Cause) :
    (s.busyRefused m t c).up = s.up :=
  s.busyRefused_sameBut m t c .up (by simp)

@[simp] theorem State.busyRefused_landing (m : MemberIx) (t : Micros) (c : Cause) :
    (s.busyRefused m t c).landing = s.landing :=
  s.busyRefused_sameBut m t c .landing (by simp)

@[simp] theorem State.busyRefused_port (m : MemberIx) (t : Micros) (c : Cause) :
    (s.busyRefused m t c).port = s.port :=
  s.busyRefused_sameBut m t c .port (by simp)

@[simp] theorem State.retire_pending (m : MemberIx) : (s.retire m).pending = s.pending :=
  s.retire_sameBut m .pending (by simp)

@[simp] theorem State.retire_now (m : MemberIx) : (s.retire m).now = s.now :=
  s.retire_sameBut m .now (by simp)

@[simp] theorem State.retire_inReset (m : MemberIx) : (s.retire m).inReset = s.inReset :=
  s.retire_sameBut m .inReset (by simp)

@[simp] theorem State.retire_os (m : MemberIx) : (s.retire m).os = s.os := by
  unfold State.retire; repeat' split
  all_goals simp

@[simp] theorem State.retire_drain (m : MemberIx) : (s.retire m).drain = s.drain :=
  s.retire_sameBut m .drain (by simp)

@[simp] theorem State.retire_members (m : MemberIx) : (s.retire m).members = s.members :=
  s.retire_sameBut m .members (by simp)

@[simp] theorem State.retire_up (m : MemberIx) : (s.retire m).up = s.up :=
  s.retire_sameBut m .up (by simp)

@[simp] theorem State.retire_landing (m : MemberIx) : (s.retire m).landing = s.landing :=
  s.retire_sameBut m .landing (by simp)

@[simp] theorem State.retire_ds (m : MemberIx) : (s.retire m).ds = s.ds :=
  s.retire_sameBut m .ds (by simp)

@[simp] theorem State.retire_log (m : MemberIx) : (s.retire m).log = s.log :=
  s.retire_sameBut m .log (by simp)

@[simp] theorem State.retire_port (m : MemberIx) : (s.retire m).port = s.port :=
  s.retire_sameBut m .port (by simp)

@[simp] theorem State.handOver_pending (l : Landing) : (s.handOver l).pending = s.pending :=
  s.handOver_sameBut l .pending (by simp)

@[simp] theorem State.handOver_now (l : Landing) : (s.handOver l).now = s.now :=
  s.handOver_sameBut l .now (by simp)

@[simp] theorem State.handOver_inReset (l : Landing) : (s.handOver l).inReset = s.inReset :=
  s.handOver_sameBut l .inReset (by simp)

@[simp] theorem State.handOver_os (l : Landing) : (s.handOver l).os = s.os := by
  unfold State.handOver; repeat' split
  all_goals simp

@[simp] theorem State.handOver_drain (l : Landing) : (s.handOver l).drain = s.drain :=
  s.handOver_sameBut l .drain (by simp)

@[simp] theorem State.handOver_members (l : Landing) : (s.handOver l).members = s.members :=
  s.handOver_sameBut l .members (by simp)

@[simp] theorem State.handOver_read (l : Landing) : (s.handOver l).read = s.read :=
  s.handOver_sameBut l .read (by simp)

@[simp] theorem State.handOver_up (l : Landing) : (s.handOver l).up = s.up :=
  s.handOver_sameBut l .up (by simp)

@[simp] theorem State.handOver_landing (l : Landing) : (s.handOver l).landing = s.landing :=
  s.handOver_sameBut l .landing (by simp)

@[simp] theorem State.handOver_ds (l : Landing) : (s.handOver l).ds = s.ds :=
  s.handOver_sameBut l .ds (by simp)

@[simp] theorem State.handOver_log (l : Landing) : (s.handOver l).log = s.log :=
  s.handOver_sameBut l .log (by simp)

@[simp] theorem State.handOver_port (l : Landing) : (s.handOver l).port = s.port :=
  s.handOver_sameBut l .port (by simp)

@[simp] theorem State.underrun_pending (d : Nat) : (s.underrun d).pending = s.pending :=
  s.underrun_sameBut d .pending (by simp)

@[simp] theorem State.underrun_now (d : Nat) : (s.underrun d).now = s.now :=
  s.underrun_sameBut d .now (by simp)

@[simp] theorem State.underrun_inReset (d : Nat) : (s.underrun d).inReset = s.inReset :=
  s.underrun_sameBut d .inReset (by simp)

@[simp] theorem State.underrun_os (d : Nat) : (s.underrun d).os = s.os := by
  unfold State.underrun; dsimp only; repeat' split
  all_goals simp

@[simp] theorem State.underrun_drain (d : Nat) : (s.underrun d).drain = s.drain :=
  s.underrun_sameBut d .drain (by simp)

@[simp] theorem State.underrun_members (d : Nat) : (s.underrun d).members = s.members :=
  s.underrun_sameBut d .members (by simp)

@[simp] theorem State.underrun_journal (d : Nat) : (s.underrun d).journal = s.journal :=
  s.underrun_sameBut d .journal (by simp)

@[simp] theorem State.underrun_landing (d : Nat) : (s.underrun d).landing = s.landing :=
  s.underrun_sameBut d .landing (by simp)

@[simp] theorem State.underrun_ds (d : Nat) : (s.underrun d).ds = s.ds :=
  s.underrun_sameBut d .ds (by simp)

@[simp] theorem State.underrun_port (d : Nat) : (s.underrun d).port = s.port :=
  s.underrun_sameBut d .port (by simp)

@[simp] theorem State.serveDue_pending : (s.serveDue).pending = s.pending :=
  s.serveDue_sameBut .pending (by simp)

@[simp] theorem State.serveDue_now : (s.serveDue).now = s.now :=
  s.serveDue_sameBut .now (by simp)

@[simp] theorem State.serveDue_inReset : (s.serveDue).inReset = s.inReset :=
  s.serveDue_sameBut .inReset (by simp)

@[simp] theorem State.serveDue_os : (s.serveDue).os = s.os := by
  unfold State.serveDue; dsimp only; repeat' split
  all_goals simp [State.fetchFailed, State.serveByte]

@[simp] theorem State.serveDue_drain : (s.serveDue).drain = s.drain :=
  s.serveDue_sameBut .drain (by simp)

@[simp] theorem State.serveDue_members : (s.serveDue).members = s.members :=
  s.serveDue_sameBut .members (by simp)

@[simp] theorem State.serveDue_journal : (s.serveDue).journal = s.journal :=
  s.serveDue_sameBut .journal (by simp)

@[simp] theorem State.serveDue_landing : (s.serveDue).landing = s.landing :=
  s.serveDue_sameBut .landing (by simp)

@[simp] theorem State.serveDue_port : (s.serveDue).port = s.port :=
  s.serveDue_sameBut .port (by simp)

@[simp] theorem State.raiseHeldIssue_pending (m : MemberIx) :
    (s.raiseHeldIssue m).pending = s.pending :=
  s.raiseHeldIssue_sameBut m .pending (by simp)

@[simp] theorem State.raiseHeldIssue_now (m : MemberIx) : (s.raiseHeldIssue m).now = s.now :=
  s.raiseHeldIssue_sameBut m .now (by simp)

@[simp] theorem State.raiseHeldIssue_inReset (m : MemberIx) :
    (s.raiseHeldIssue m).inReset = s.inReset :=
  s.raiseHeldIssue_sameBut m .inReset (by simp)

@[simp] theorem State.raiseHeldIssue_os (m : MemberIx) : (s.raiseHeldIssue m).os = s.os := by
  unfold State.raiseHeldIssue; repeat' split
  all_goals simp

@[simp] theorem State.raiseHeldIssue_drain (m : MemberIx) :
    (s.raiseHeldIssue m).drain = s.drain :=
  s.raiseHeldIssue_sameBut m .drain (by simp)

@[simp] theorem State.raiseHeldIssue_members (m : MemberIx) :
    (s.raiseHeldIssue m).members = s.members :=
  s.raiseHeldIssue_sameBut m .members (by simp)

@[simp] theorem State.raiseHeldIssue_journal (m : MemberIx) :
    (s.raiseHeldIssue m).journal = s.journal :=
  s.raiseHeldIssue_sameBut m .journal (by simp)

@[simp] theorem State.raiseHeldIssue_read (m : MemberIx) : (s.raiseHeldIssue m).read = s.read :=
  s.raiseHeldIssue_sameBut m .read (by simp)

@[simp] theorem State.raiseHeldIssue_up (m : MemberIx) : (s.raiseHeldIssue m).up = s.up :=
  s.raiseHeldIssue_sameBut m .up (by simp)

@[simp] theorem State.raiseHeldIssue_landing (m : MemberIx) :
    (s.raiseHeldIssue m).landing = s.landing :=
  s.raiseHeldIssue_sameBut m .landing (by simp)

@[simp] theorem State.raiseHeldIssue_log (m : MemberIx) : (s.raiseHeldIssue m).log = s.log :=
  s.raiseHeldIssue_sameBut m .log (by simp)

@[simp] theorem State.raiseHeldIssue_port (m : MemberIx) : (s.raiseHeldIssue m).port = s.port :=
  s.raiseHeldIssue_sameBut m .port (by simp)

@[simp] theorem State.closeRead_pending : (s.closeRead).pending = s.pending :=
  s.closeRead_sameBut .pending (by simp)

@[simp] theorem State.closeRead_now : (s.closeRead).now = s.now :=
  s.closeRead_sameBut .now (by simp)

@[simp] theorem State.closeRead_inReset : (s.closeRead).inReset = s.inReset :=
  s.closeRead_sameBut .inReset (by simp)

@[simp] theorem State.closeRead_os : (s.closeRead).os = s.os := by
  unfold State.closeRead; repeat' split
  all_goals simp

@[simp] theorem State.closeRead_drain : (s.closeRead).drain = s.drain :=
  s.closeRead_sameBut .drain (by simp)

@[simp] theorem State.closeRead_members : (s.closeRead).members = s.members :=
  s.closeRead_sameBut .members (by simp)

@[simp] theorem State.closeRead_journal : (s.closeRead).journal = s.journal :=
  s.closeRead_sameBut .journal (by simp)

@[simp] theorem State.closeRead_up : (s.closeRead).up = s.up :=
  s.closeRead_sameBut .up (by simp)

@[simp] theorem State.closeRead_landing : (s.closeRead).landing = s.landing :=
  s.closeRead_sameBut .landing (by simp)

@[simp] theorem State.closeRead_log : (s.closeRead).log = s.log :=
  s.closeRead_sameBut .log (by simp)

@[simp] theorem State.closeRead_port : (s.closeRead).port = s.port :=
  s.closeRead_sameBut .port (by simp)

@[simp] theorem State.endAborted_pending (w : OpenWrite) : (s.endAborted w).pending = s.pending :=
  s.endAborted_sameBut w .pending (by simp)

@[simp] theorem State.endAborted_now (w : OpenWrite) : (s.endAborted w).now = s.now :=
  s.endAborted_sameBut w .now (by simp)

@[simp] theorem State.endAborted_inReset (w : OpenWrite) : (s.endAborted w).inReset = s.inReset :=
  s.endAborted_sameBut w .inReset (by simp)

@[simp] theorem State.endAborted_os (w : OpenWrite) : (s.endAborted w).os = s.os := by
  unfold State.endAborted; repeat' split
  all_goals simp

@[simp] theorem State.endAborted_drain (w : OpenWrite) : (s.endAborted w).drain = s.drain :=
  s.endAborted_sameBut w .drain (by simp)

@[simp] theorem State.endAborted_members (w : OpenWrite) : (s.endAborted w).members = s.members :=
  s.endAborted_sameBut w .members (by simp)

@[simp] theorem State.endAborted_journal (w : OpenWrite) : (s.endAborted w).journal = s.journal :=
  s.endAborted_sameBut w .journal (by simp)

@[simp] theorem State.endAborted_read (w : OpenWrite) : (s.endAborted w).read = s.read :=
  s.endAborted_sameBut w .read (by simp)

@[simp] theorem State.endAborted_up (w : OpenWrite) : (s.endAborted w).up = s.up :=
  s.endAborted_sameBut w .up (by simp)

@[simp] theorem State.endAborted_landing (w : OpenWrite) : (s.endAborted w).landing = s.landing :=
  s.endAborted_sameBut w .landing (by simp)

@[simp] theorem State.endAborted_ds (w : OpenWrite) : (s.endAborted w).ds = s.ds :=
  s.endAborted_sameBut w .ds (by simp)

@[simp] theorem State.endAborted_port (w : OpenWrite) : (s.endAborted w).port = s.port :=
  s.endAborted_sameBut w .port (by simp)

@[simp] theorem State.abortWrite_pending : (s.abortWrite).pending = s.pending :=
  s.abortWrite_sameBut .pending (by simp)

@[simp] theorem State.abortWrite_now : (s.abortWrite).now = s.now :=
  s.abortWrite_sameBut .now (by simp)

@[simp] theorem State.abortWrite_inReset : (s.abortWrite).inReset = s.inReset :=
  s.abortWrite_sameBut .inReset (by simp)

@[simp] theorem State.abortWrite_os : (s.abortWrite).os = s.os := by
  unfold State.abortWrite; repeat' split
  all_goals simp

@[simp] theorem State.abortWrite_drain : (s.abortWrite).drain = s.drain :=
  s.abortWrite_sameBut .drain (by simp)

@[simp] theorem State.abortWrite_members : (s.abortWrite).members = s.members :=
  s.abortWrite_sameBut .members (by simp)

@[simp] theorem State.abortWrite_journal : (s.abortWrite).journal = s.journal :=
  s.abortWrite_sameBut .journal (by simp)

@[simp] theorem State.abortWrite_read : (s.abortWrite).read = s.read :=
  s.abortWrite_sameBut .read (by simp)

@[simp] theorem State.abortWrite_landing : (s.abortWrite).landing = s.landing :=
  s.abortWrite_sameBut .landing (by simp)

@[simp] theorem State.abortWrite_ds : (s.abortWrite).ds = s.ds :=
  s.abortWrite_sameBut .ds (by simp)

@[simp] theorem State.abortWrite_log : (s.abortWrite).log = s.log :=
  s.abortWrite_sameBut .log (by simp)

@[simp] theorem State.abortWrite_port : (s.abortWrite).port = s.port :=
  s.abortWrite_sameBut .port (by simp)

@[simp] theorem State.enterFlush_pending : (s.enterFlush).pending = s.pending :=
  s.enterFlush_sameBut .pending (by simp)

@[simp] theorem State.enterFlush_now : (s.enterFlush).now = s.now :=
  s.enterFlush_sameBut .now (by simp)

@[simp] theorem State.enterFlush_inReset : (s.enterFlush).inReset = s.inReset :=
  s.enterFlush_sameBut .inReset (by simp)

@[simp] theorem State.enterFlush_members : (s.enterFlush).members = s.members :=
  s.enterFlush_sameBut .members (by simp)

@[simp] theorem State.enterFlush_read : (s.enterFlush).read = s.read :=
  s.enterFlush_sameBut .read (by simp)

@[simp] theorem State.enterFlush_landing : (s.enterFlush).landing = s.landing :=
  s.enterFlush_sameBut .landing (by simp)

@[simp] theorem State.enterFlush_ds : (s.enterFlush).ds = s.ds :=
  s.enterFlush_sameBut .ds (by simp)

@[simp] theorem State.enterFlush_log : (s.enterFlush).log = s.log :=
  s.enterFlush_sameBut .log (by simp)

@[simp] theorem State.enterFlush_port : (s.enterFlush).port = s.port :=
  s.enterFlush_sameBut .port (by simp)

@[simp] theorem State.wake_pending : (s.wake).pending = s.pending :=
  s.wake_sameBut .pending (by simp)

@[simp] theorem State.wake_now : (s.wake).now = s.now :=
  s.wake_sameBut .now (by simp)

@[simp] theorem State.wake_inReset : (s.wake).inReset = s.inReset :=
  s.wake_sameBut .inReset (by simp)

@[simp] theorem State.wake_drain : (s.wake).drain = s.drain :=
  s.wake_sameBut .drain (by simp)

@[simp] theorem State.wake_members : (s.wake).members = s.members :=
  s.wake_sameBut .members (by simp)

@[simp] theorem State.wake_journal : (s.wake).journal = s.journal :=
  s.wake_sameBut .journal (by simp)

@[simp] theorem State.wake_read : (s.wake).read = s.read :=
  s.wake_sameBut .read (by simp)

@[simp] theorem State.wake_up : (s.wake).up = s.up :=
  s.wake_sameBut .up (by simp)

@[simp] theorem State.wake_landing : (s.wake).landing = s.landing :=
  s.wake_sameBut .landing (by simp)

@[simp] theorem State.wake_ds : (s.wake).ds = s.ds :=
  s.wake_sameBut .ds (by simp)

@[simp] theorem State.wake_log : (s.wake).log = s.log :=
  s.wake_sameBut .log (by simp)

@[simp] theorem State.wake_port : (s.wake).port = s.port :=
  s.wake_sameBut .port (by simp)

@[simp] theorem State.finish_pending (x : Status) (l : List Byte) :
    (s.finish x l).pending = s.pending :=
  s.finish_sameBut x l .pending (by simp)

@[simp] theorem State.finish_now (x : Status) (l : List Byte) : (s.finish x l).now = s.now :=
  s.finish_sameBut x l .now (by simp)

@[simp] theorem State.finish_inReset (x : Status) (l : List Byte) :
    (s.finish x l).inReset = s.inReset :=
  s.finish_sameBut x l .inReset (by simp)

@[simp] theorem State.finish_os (x : Status) (l : List Byte) : (s.finish x l).os = s.os := by
  unfold State.finish; repeat' split
  all_goals simp

@[simp] theorem State.finish_drain (x : Status) (l : List Byte) :
    (s.finish x l).drain = s.drain :=
  s.finish_sameBut x l .drain (by simp)

@[simp] theorem State.finish_members (x : Status) (l : List Byte) :
    (s.finish x l).members = s.members :=
  s.finish_sameBut x l .members (by simp)

@[simp] theorem State.finish_journal (x : Status) (l : List Byte) :
    (s.finish x l).journal = s.journal :=
  s.finish_sameBut x l .journal (by simp)

@[simp] theorem State.finish_read (x : Status) (l : List Byte) : (s.finish x l).read = s.read :=
  s.finish_sameBut x l .read (by simp)

@[simp] theorem State.finish_up (x : Status) (l : List Byte) : (s.finish x l).up = s.up :=
  s.finish_sameBut x l .up (by simp)

@[simp] theorem State.finish_landing (x : Status) (l : List Byte) :
    (s.finish x l).landing = s.landing :=
  s.finish_sameBut x l .landing (by simp)

@[simp] theorem State.finish_ds (x : Status) (l : List Byte) : (s.finish x l).ds = s.ds :=
  s.finish_sameBut x l .ds (by simp)

@[simp] theorem State.finish_log (x : Status) (l : List Byte) : (s.finish x l).log = s.log :=
  s.finish_sameBut x l .log (by simp)

end Sys2Proof.Machine
end

