-- ==== Sys2Proof/Laws/Port.lean ====
section
/-! SUPPORT. What the arrival of a whole frame does, said once for all thirteen commands (R180). -/

namespace Sys2Proof.Machine

/-- The row of a command is the arrival of its frame. -/
theorem exec_row (c : Cmd) (seq : Byte) (payload : List Byte) (s : State) :
    exec (c.row seq payload) s = s.takeFrame c.code seq payload := by
  cases c <;> rfl

theorem Cmd.ofCode_code (c : Cmd) : Cmd.ofCode c.code = some c := by cases c <;> decide

theorem State.wake_of_awake {s : State} (h : s.os.part ≠ .doze) : s.wake = s := by
  simp [State.wake, h]

/-- A frame that the receiver takes is decoded in the state that the part wakes to (R178 to R180). -/
theorem State.takeFrame_eq {s : State} (hr : s.inReset = false) (ho : s.port.rx ≠ .stopped)
    (code seq : Byte) {payload : List Byte} (hl : payload.length ≤ 72) :
    s.takeFrame code seq payload =
      .next ((s.wake.setRx .hunt).decodeFrame code seq payload).settle := by
  unfold State.takeFrame
  refine State.take_some hr ?_
  cases hx : s.port.rx with
  | stopped => exact absurd hx ho
  | _ => exact if_pos hl

/-- A command that passes the checks of R180 is executed with the receiver in HUNT. -/
theorem State.ReadyFor.exec_eq {s : State} {c : Cmd} (h : s.ReadyFor c) (seq : Byte)
    {payload : List Byte} (hl : payload.length = c.requestLength) :
    exec (c.row seq payload) s = .next ((s.setRx .hunt).runCommand c seq payload).settle := by
  have k : payload.length ≤ 72 := by
    rw [hl]; cases c <;> simp [Cmd.requestLength, Config.descriptorBytes]
  rw [exec_row, State.takeFrame_eq h.released h.open_ _ _ k, State.wake_of_awake h.awake]
  unfold State.decodeFrame
  rw [if_neg (by simp [h.free]), Cmd.ofCode_code]
  have m : ¬((s.setRx .hunt).os.mode = .monitor ∧ c.inMonitor = false) := by
    rintro ⟨a, b⟩; simp [h.mode a] at b
  simp only [if_neg m, hl, ne_eq, not_true, if_false]

/-- An immediate answer (R181). -/
theorem State.answer_sameBut (s : State) (code seq : Byte) (st : Status) (pl : List Byte) :
    s.sameBut (s.answer code seq st pl) [.port] := by
  intro p hp; unfold State.answer; cases p <;> simp_all [State.sameAt]

/-- An immediate answer leaves the port with its response composed, the receiver as it was (R181). -/
theorem State.answer_port (s : State) (code seq : Byte) (st : Status) (pl : List Byte) :
    (s.answer code seq st pl).port = { s.port.answered code seq st pl with rx := s.port.rx } := by
  simp [State.answer, State.finish, Port.answered]

end Sys2Proof.Machine
end

