-- ==== Sys2Proof/Laws/Slots.lean ====
section
/-! SUPPORT. The commit slot of a member: which entry it holds, and what the updates of its working values
leave in it. -/

namespace Sys2Proof.Machine

/-- The slot's entry is an in-flight entry of the member (R29). -/
theorem State.slotEntry_spec {s : State} {m : MemberIx} {e : Entry} (h : s.slotEntry m = some e) :
    e ∈ s.journal ∧ e.member = m ∧ e.isInFlight = true := by
  have k := List.find?_some h
  exact ⟨List.mem_of_find?_eq_some h, by simpa using k⟩

/-- The slot's working values are those of its entry. -/
theorem State.slot_eq {s : State} {m : MemberIx} {e : Entry} {f : Flight}
    (h : s.slotEntry m = some e) (k : e.state = .inFlight f) : s.slot m = some f := by
  simp [State.slot, h, Entry.flight?, k]

/-- An update of the slot's entry that keeps it in the slot. -/
theorem State.slotEntry_updateSlotEntry {s : State} {m : MemberIx} {e : Entry} {f : Flight}
    {g : Flight → Entry → Entry} (h : s.slotEntry m = some e) (k : e.state = .inFlight f)
    (hm : ∀ fl e, (g fl e).member = e.member)
    (hi : ∀ fl e, e.isInFlight = true → (g fl e).isInFlight = true) :
    (s.updateSlotEntry m g).slotEntry m = some (g f e) := by
  simp only [State.slotEntry, State.updateSlotEntry] at *
  generalize s.journal = l at *
  induction l with
  | nil => simp at h
  | cons x l ih =>
    simp only [List.map_cons, List.find?_cons] at *
    by_cases q : (x.member == m && x.isInFlight) = true
    · rw [q] at h; cases h
      have q1 : e.member = m := by simp_all
      have q2 : e.flight? = some f := by simp [Entry.flight?, k]
      simp only [q1, if_true, q2]
      have r : ((g f e).member == m && (g f e).isInFlight) = true := by
        simp [hm, q1, hi f e (by simp [Entry.isInFlight, q2])]
      rw [r]
    · have q' : (x.member == m && x.isInFlight) = false := by simpa using q
      rw [q'] at h
      by_cases c : x.member = m
      · have n : x.flight? = none := by simpa [c, Entry.isInFlight] using q'
        simp only [c, if_true, n]
        simp only [c] at q'; rw [q']; exact ih h
      · simp only [c, if_false]; rw [q']; exact ih h

/-- An update of the slot's working values. -/
theorem State.slotEntry_updateFlight {s : State} {m : MemberIx} {e : Entry} {f : Flight}
    {g : Flight → Flight} (h : s.slotEntry m = some e) (k : e.state = .inFlight f) :
    (s.updateFlight m g).slotEntry m = some { e with state := .inFlight (g f) } :=
  State.slotEntry_updateSlotEntry h k (by simp) (by intro fl e _; simp [Entry.isInFlight, Entry.flight?])

theorem State.slot_updateFlight {s : State} {m : MemberIx} {e : Entry} {f : Flight}
    {g : Flight → Flight} (h : s.slotEntry m = some e) (k : e.state = .inFlight f) :
    (s.updateFlight m g).slot m = some (g f) := by
  simp [State.slot, State.slotEntry_updateFlight h k, Entry.flight?]

/-! ## The request of the next step (R30, R33) -/

@[simp] theorem State.raiseStep_ds_ctl (s : State) (m : MemberIx) :
    (s.raiseStep m).ds.ctl = s.ds.ctl := by
  unfold State.raiseStep; split
  · rfl
  · split <;> simp

@[simp] theorem State.raiseStep_slotEntry (s : State) (m k : MemberIx) :
    (s.raiseStep m).slotEntry k = s.slotEntry k := by
  simp [State.slotEntry]

/-- The step's request waits, but for an issue that a read holds back. -/
theorem State.mem_raiseStep {s : State} {m : MemberIx} {f : Flight} (h : s.slot m = some f)
    (k : f.stage ≠ .issuing ∨ s.readHold m = false) :
    f.stage.request m ∈ (s.raiseStep m).ds.waiting := by
  simp only [State.raiseStep, h]; split
  · simp_all
  · simp

/-- An issue that a read holds back is not raised (R33). -/
theorem State.raiseStep_held {s : State} {m : MemberIx} {f : Flight} (h : s.slot m = some f)
    (k : f.stage = .issuing) (r : s.readHold m = true) : s.raiseStep m = s := by
  simp [State.raiseStep, h, k, r]

/-! ## Leaving CYCLE (R86) -/

theorem State.memberState_leaveCycle {s : State} {m : MemberIx} (h : s.memberState m = .cycle) :
    (s.leaveCycle m).memberState m = .online := by
  have r : m.val < s.members.length := by
    by_contra c
    simp [State.memberState, List.getElem?_eq_none (Nat.le_of_not_lt c)] at h
  unfold State.leaveCycle; dsimp only; rw [if_pos h]
  split
  · split
    · rw [State.memberState_congr (s := s.setMember m .online) (by simp)]
      exact State.memberState_setMember r _
    · exact State.memberState_setMember r _
  · exact State.memberState_setMember r _

@[simp] theorem State.info_leaveCycle (s : State) (m k : MemberIx) :
    (s.leaveCycle m).info k = s.info k := by
  unfold State.leaveCycle; dsimp only; split
  · split
    · split
      · rw [State.info_congr (s := s.setMember m .online) (by simp)]; simp
      · simp
    · simp
  · rfl

@[simp] theorem State.leaveCycle_ds_ctl (s : State) (m : MemberIx) :
    (s.leaveCycle m).ds.ctl = s.ds.ctl := by
  unfold State.leaveCycle; dsimp only; split
  · split
    · split <;> simp
    · simp
  · rfl

/-! ## The other entries -/

/-- An update of one slot's entry keeps every other entry at its position. -/
theorem State.keepsOthers_updateSlotEntry (s : State) (m : MemberIx) (g : Flight → Entry → Entry) :
    s.keepsOthers (s.updateSlotEntry m g) m := by
  refine ⟨by simp [State.updateSlotEntry], fun i e h k => ?_⟩
  simp only [State.updateSlotEntry, List.getElem?_map, h, Option.map_some]
  split
  · rename_i c
    have n : e.flight? = none := by simpa [Entry.isInFlight] using k c
    rw [n]
  · rfl

/-- What is said of the other entries is said of the journal alone. -/
theorem State.keepsOthers_congr {s s' t t' : State} {m : MemberIx} (h : s.keepsOthers t m)
    (j : s'.journal = s.journal) (k : t'.journal = t.journal) : s'.keepsOthers t' m := by
  simpa [State.keepsOthers, j, k] using h

/-! ## The open read's fetch (R60) and its buffer (R21) -/

/-- The open read after its member's entry to CYCLE. -/
theorem State.enterCycle_read (s : State) (m : MemberIx) :
    (s.enterCycle m).read = s.read.map fun o => o.onFetch m FetchState.atCycle := by
  unfold State.enterCycle State.fetchOf; dsimp only
  simp only [State.setMember_read]
  cases hr : s.read with
  | none => simp [hr]
  | some r =>
    cases hc : r.cond with
    | waiting t f =>
      by_cases hm : r.member = m
      · simp only [hm, if_true, Option.map_some, OpenRead.onFetch, hc]
        cases hf : f.state <;> simp [FetchState.atCycle, State.setFetch, hr, hc]
        all_goals (cases r; cases f; simp_all)
      · simp [hm, OpenRead.onFetch, hc, hr]
    | serving => by_cases hm : r.member = m <;> simp [hm, OpenRead.onFetch, hc, hr]
    | underrun => by_cases hm : r.member = m <;> simp [hm, OpenRead.onFetch, hc, hr]

/-- The open read after the end of its member's CYCLE. -/
theorem State.leaveCycle_read {s : State} {m : MemberIx} (h : s.memberState m = .cycle) :
    (s.leaveCycle m).read = s.read.map fun o => o.onFetch m FetchState.afterCycle := by
  unfold State.leaveCycle State.fetchOf; dsimp only
  rw [if_pos h]
  simp only [State.setMember_read]
  cases hr : s.read with
  | none => simp [hr]
  | some r =>
    cases hc : r.cond with
    | waiting t f =>
      by_cases hm : r.member = m
      · simp only [hm, if_true, Option.map_some, OpenRead.onFetch, hc]
        cases hf : f.state <;> simp [FetchState.afterCycle, State.setFetch, hr, hc]
        all_goals (cases r; cases f; simp_all)
      · simp [hm, OpenRead.onFetch, hc, hr]
    | serving => by_cases hm : r.member = m <;> simp [hm, OpenRead.onFetch, hc, hr]
    | underrun => by_cases hm : r.member = m <;> simp [hm, OpenRead.onFetch, hc, hr]

/-- A fetch that was held for the cycle waits after it. -/
theorem State.leaveCycle_raises {s : State} {m : MemberIx} {f : Fetch}
    (h : s.memberState m = .cycle) (k : s.fetchOf m = some f) (q : f.state = .heldForCycle) :
    .fetch ∈ (s.leaveCycle m).ds.waiting := by
  have e : (s.setMember m .online).fetchOf m = some f := k
  unfold State.leaveCycle; dsimp only
  rw [if_pos h]
  simp only [e, q]; simp

/-- What the buffer takes from an entry (R70). -/
theorem FetchBuffer.take_takes (b : FetchBuffer) (r : MemberRec) (e : Entry) :
    b.Takes (b.take r e) r e := by
  refine ⟨rfl, by simp [FetchBuffer.take], fun i old h => ?_⟩
  simp [FetchBuffer.take, h, MemberRec.pageOf, MemberRec.offsetOf]
  rfl

/-- The open read after the retirement of a slot's entry. -/
theorem State.retire_read {s : State} {m : MemberIx} {e : Entry} (h : s.slotEntry m = some e) :
    (s.retire m).read =
      s.read.map fun o =>
        if o.member = m then { o with buffer := o.buffer.map fun b => b.take (s.info m) e } else o := by
  simp [State.retire, h]

end Sys2Proof.Machine
end

