-- ==== Sys2Proof/Tests/Slice0.lean ====
section
/-! SUPPORT. Tests of the model and witnesses of the statements. An expected result is the spec's: a worked
sequence, a table or a check value. A witness shows a state and operands that meet the hypotheses of a
statement, clause by clause. -/

open Sys2Proof Sys2Proof.Machine

namespace Sys2Proof.Tests

-- One theorem after another: a hundred kernel evaluations at once would each take a thread.
set_option Elab.async false

/-! ## Ill-formed commands -/

theorem test_descriptor_read_of_63_bytes_refused :
    (Instr.descriptorReadEnd (.completed (List.replicate 63 0))).wellFormed = false := by decide

theorem test_empty_fetch_refused : (Instr.fetchEnd (.completed [])).wellFormed = false := by decide

theorem test_fetch_of_17_bytes_refused :
    (Instr.fetchEnd (.completed (List.replicate 17 0))).wellFormed = false := by decide

theorem test_fill_read_of_65_bytes_refused :
    (Instr.fillReadEnd (.completed (List.replicate 65 0))).wellFormed = false := by decide

theorem test_verify_read_of_65_bytes_refused :
    (Instr.verifyReadEnd (.completed (List.replicate 65 0))).wellFormed = false := by decide

theorem test_dwell_of_position_32_refused : (Instr.dwellExpiry 32).wellFormed = false := by decide

theorem test_known_code_is_no_unknown_command :
    (Instr.unknownCommand 0x18 0 []).wellFormed = false := by decide

theorem test_bus_clear_of_ten_pulses_refused :
    (Instr.busClearSclTimeout 10).wellFormed = false := by decide

theorem test_payload_of_73_bytes_refused :
    (Instr.status 0 (List.replicate 73 0)).wellFormed = false := by decide

theorem test_no_word_spells_a_command : decodeTableWord 8 0 = none := rfl

/-! ## Formats (Chapter 11) -/

/-- The ASCII bytes "1" to "9". -/
def digits : List Byte := [0x31, 0x32, 0x33, 0x34, 0x35, 0x36, 0x37, 0x38, 0x39]

/-- R195: the CRC-8 over "1" to "9" is 0xF4. -/
theorem test_crc8_check_value : crc8 digits = 0xF4 := by decide +kernel

/-- R194: the CRC-16 over "1" to "9" is 0x29B1. -/
theorem test_crc16_check_value : crc16 digits = 0x29B1 := by decide +kernel

/-- Table 11-3. -/
theorem test_example_record :
    readRecord [0x50, 0x26, 0x21, 0x14, 0x05, 0x00] =
      { bus := 0x50, capacityCode := 6, pageCode := 2, journaled := true, strict := false,
        hold := false, fill := false, verify := false, retryLimit := 1, dwellMs := 20,
        cycleMs := 5 } := by decide

/-! ## States for the tests -/

/-- Member 0 of Section 5.10 with the retry limit, VERIFY and timeout of Table 11-3: loose order, 8 KiB,
pages of 32 bytes. Here it stands at 0x51, away from the descriptor device. -/
def looseRec : MemberRec :=
  { bus := 0x51, capacityCode := 6, pageCode := 2, journaled := true, strict := false, hold := true,
    fill := false, verify := false, retryLimit := 1, dwellMs := 20, cycleMs := 5 }

/-- Member 1 of Section 1.8: strict order, pages of 16 bytes, dwell 50 ms; here with the FILL policy, VERIFY
and no retry, at the descriptor device. -/
def strictRec : MemberRec :=
  { bus := 0x50, capacityCode := 2, pageCode := 1, journaled := true, strict := true, hold := false,
    fill := true, verify := true, retryLimit := 0, dwellMs := 50, cycleMs := 31 }

/-- A relayed member. -/
def relayedRec : MemberRec :=
  { bus := 0x52, capacityCode := 1, pageCode := 0, journaled := false, strict := false,
    hold := false, fill := false, verify := false, retryLimit := 0, dwellMs := 0, cycleMs := 1 }

/-- RUN in SERVICE mode, with three members, an empty journal and a free bus. -/
def base : State :=
  { State.reset with
    inReset := false
    now := 1000000
    os :=
      { State.reset.os with
        part := .run, mode := .service, start := none, everLeft := true,
        globals := some { highWater := 16, holdMs := 20, budgetMs := 30, quiesceMs := 50 }
        quiesce := some 1000000 }
    members :=
      [{ info := looseRec, state := .online, pointer := 0x013E },
       { info := strictRec, state := .online, pointer := 0x0040 },
       { info := relayedRec, state := .unset, pointer := 0 }]
    port := { rx := .hunt, cmd := none, tx := [] } }

/-- ADS 0, and every line low or deasserted. -/
def lowPins : Pins :=
  { ads := 0, passHigh := false, mselHigh := false, drainHigh := false, pfailAsserted := false }

/-- `n` bytes written from an offset of a page of `size` bytes. -/
def span (size start n : Nat) (b : Byte) : PageImage :=
  (List.range size).map fun o => if start ≤ o ∧ o < start + n then some b else none

/-- An unmarked entry. -/
def entry (m : MemberIx) (page : Nat) (img : PageImage) (st : EntryState) : Entry :=
  { member := m, page := page, image := img, state := st, attempts := 0, deadline := 1020000,
    marked := false }

/-- In flight at a stage, with two runs and the cursor at the first. -/
def flying (st : Stage) : Flight :=
  { stage := st, runs := [{ start := 0, len := 1 }, { start := 2, len := 1 }], cursor := 0,
    fillImage := none, busyStart := none, cycleStart := none, due := none }

/-- The bus is held. -/
def holder (r : Request) (x : Transaction) : Holder :=
  { req := r, txn := x, member := none, page := none, since := 1000000 }

def withJournal (s : State) (l : List Entry) : State := { s with journal := l }
def withBus (s : State) (r : Request) (x : Transaction) : State :=
  { s with ds := { s.ds with ctl := .busy (holder r x) } }
def withCtl (s : State) (c : Controller) : State := { s with ds := { s.ds with ctl := c } }
def withWaiting (s : State) (l : List Request) : State := { s with ds := { s.ds with waiting := l } }
def withPhase (s : State) (p : Phase) : State := { s with up := { s.up with phase := p, idle := some s.now } }
def withPart (s : State) (p : PartState) (ret : Option PartState) : State :=
  { s with os := { s.os with part := p, ret := ret, quiesce := none } }
def withStart (s : State) (st : StartStep) : State :=
  { s with os := { s.os with part := .starting, start := some st, quiesce := none } }
def withMsel (s : State) (n : Option Nat) : State := { s with os := { s.os with msel := n } }
def withMoved (s : State) (t : Micros) : State := { s with ds := { s.ds with moved := t } }
def withMove (s : State) (acts : List DownDrive) (t : Micros) : State :=
  { s with ds := { s.ds with drive := acts, moved := t } }
def atTime (s : State) (t : Micros) : State := { s with now := t }
def withClosing (s : State) (c : Bool) : State := { s with ds := { s.ds with closing := c } }
def withDir (s : State) (d : Dir) : State := { s with up := { s.up with dir := some d } }
def withRead (s : State) (r : OpenRead) : State :=
  { s with read := some r, up := { s.up with phase := .read, idle := some s.now } }
def withJob (s : State) (j : Job) : State :=
  { s with port := { s.port with cmd := some { code := 0x14, seq := 7, job := j } } }
def withState (s : State) (m : MemberIx) (st : MemberState) : State := s.setMember m st

/-- The next state of an outcome. -/
def after : Result → State
  | .next t => t
  | _ => State.reset

/-- A write of a member with its word address complete. -/
def openWrite (m : MemberIx) (word : List Byte) : OpenWrite :=
  { member := m, word := word, dataCount := 0, mark := .clear }

/-- A write whose landing buffer holds an image. -/
def landed (s : State) (m : MemberIx) (page : Nat) (img : PageImage) : State :=
  { withPhase s (.write (openWrite m [0, 0])) with
    landing := some { member := m, page := page, image := img } }

/-! ## The journal (Sections 1.8 and 1.9) -/

/-- Entries A to D of Table 1-6. -/
def entryA : Entry := entry 0 3 (span 32 0 8 0xAA) .pending
def entryB : Entry := entry 1 0 (span 16 0 4 0xBB) .pending
def entryC : Entry := entry 1 2 (span 16 0 16 0xCC) .pending

/-- Section 1.8 step 3: the write merges into A, which then holds 12 bytes. -/
theorem test_write_merges_into_the_pending_entry :
    ((after (exec .writeStop
        (landed (withJournal base [entryA, entryB]) 0 3 (span 32 4 8 0xA2)))).journal.map
      fun e => (e.page, e.image.validCount)) = [(3, 12), (0, 4)] := by decide +kernel

/-- Section 1.8 step 5: B is not the youngest entry of the strict member, so D is allocated. -/
theorem test_strict_write_does_not_merge_past_a_younger_entry :
    ((after (exec .writeStop
        (landed (withJournal base [entryA, entryB, entryC]) 1 0 (span 16 2 2 0xDD)))).journal.map
      fun e => (e.page, e.image.validCount)) = [(3, 8), (0, 4), (2, 16), (0, 2)] := by
  decide +kernel

/-- The list of Table 1-9 without the entries of other members. -/
def heldList : List Entry :=
  [{ entry 0 3 (span 32 0 12 0x0A) .held with attempts := 2, marked := true },
   { entry 0 5 (span 32 0 8 0x0B) .held with marked := true },
   { entry 0 3 (span 32 10 4 0x0C) .held with marked := true },
   { entry 0 3 (span 32 20 2 0x0D) .held with deadline := 1050000 }]

/-- Member 0 is HELD with the entries of Table 1-9. -/
def heldState : State :=
  { withJournal (withState base 0 .held) heldList with os := { base.os with quiesce := none } }

/-- Section 1.9: after MEMBER_RETRY, Table 1-10. -/
theorem test_retry_merges_the_entries_of_a_page :
    ((after (exec (.memberRetry 1 [0]) heldState)).journal.map fun e =>
      (e.page, e.image.validCount, e.attempts, e.marked, e.deadline, e.isPending)) =
      [(3, 16, 0, true, 1050000, true), (5, 8, 0, true, 1020000, true)] := by decide +kernel

/-- Section 1.9: MEMBER_DISCARD gives 4. -/
theorem test_discard_answers_the_number_freed :
    (after (exec (.memberDiscard 1 [0]) heldState)).port.tx.map (fun o => o.response.payload) =
      [[4]] := by decide +kernel

/-! ## Committing (Sections 2.12 and 6.9) -/

/-- The entry of Section 2.12. -/
def threeRuns : PageImage :=
  (List.range 32).map fun o => if o < 4 ∨ (8 ≤ o ∧ o < 16) ∨ 28 ≤ o then some 0x55 else none

/-- Table 2-5: the runs. -/
theorem test_three_runs :
    threeRuns.runs =
      [{ start := 0, len := 4 }, { start := 8, len := 8 }, { start := 28, len := 4 }] := by
  decide +kernel

/-- Table 2-5: the word address of run 3 of page 6 is 0x00, 0xDC. -/
theorem test_word_address_of_a_run :
    looseRec.wordBytes (looseRec.addrOf 6 28) = [0x00, 0xDC] := by decide

/-- The entry of Section 2.12 in its cycle of run 2. -/
def cycling : State :=
  withState
    (withJournal base
      [entry 0 6 threeRuns
        (.inFlight
          { flying .cycling with
            runs := threeRuns.runs, cursor := 1, cycleStart := some 1000000 })])
    0 .cycle

/-- Section 2.12, 8.6 ms: the cycle times out 5 ms after its start, and the attempt fails and is planned
again from run 1 with the member ONLINE. -/
theorem test_cycle_timeout_plans_again :
    let t := after (exec (.writeCycleTimeout 0) cycling)
    t.now = 1005000 ∧ t.journal.map (·.attempts) = [1] ∧
      (t.slot 0).map (fun f => (f.stage, f.cursor)) = some (.issuing, 0) ∧
      t.memberState 0 = .online ∧ t.log.map (fun r => (r.kind, r.detail)) = [(.attemptFailed, 3)] := by
  decide +kernel

/-- Section 6.9: a relay and two commit requests wait. -/
def contention : State :=
  withWaiting
    (withPhase
      (withJournal base
        [entry 1 0 (span 16 0 4 0x44) (.inFlight (flying .issuing)),
         entry 0 6 threeRuns (.inFlight (flying .cycling))])
      (.relayWait 0x48 true 1000000))
    [.poll 0, .issue 1, .relay]

/-- Section 6.9, 0.1 ms: the relay is granted and the counter becomes 1. -/
theorem test_relay_goes_before_commit_requests :
    (after (exec (.arbiterChoice true) contention)).ds.starvation = 1 ∧
      contention.choice = some .relay := by decide +kernel

/-- R122 rule 3: the poll goes before the issue that stands earlier in the list. -/
theorem test_poll_goes_before_an_earlier_issue :
    (withWaiting contention [.poll 0, .issue 1]).choice = some (.poll 0) := by decide +kernel

/-- Section 6.9, 26.2 ms: the failed bus clear returns both entries to PENDING, sets the counter to 0 and
the retry timer to 10 ms on. -/
theorem test_halt_returns_the_entries :
    let t := after (exec .busClearSclTimeout (withCtl (withWaiting contention [.poll 0, .issue 1]) .clearing))
    t.os.part = .haltDown ∧ t.os.ret = some .run ∧ t.journal.map Entry.isPending = [true, true] ∧
      t.ds.starvation = 0 ∧ t.ds.waiting = [] ∧ t.ds.ctl = .halted 1010000 ∧
      t.log.map (·.kind) = [.busStuck] := by decide +kernel

/-! ## Reads (Section 3.7) -/

/-- Entries F and G of Section 3.7, here of member 0, whose pages hold 32 bytes: addresses 164 to 171 and
168 to 173. -/
def readList : List Entry :=
  [entry 0 5 (span 32 4 8 0x11) (.inFlight (flying .cycling)), entry 0 5 (span 32 8 6 0x22) .pending]

/-- Table 3-4: 165 comes from F, 168 from G, and 162 from neither. -/
theorem test_youngest_entry_serves :
    let s := withJournal base readList
    s.overlayByte 0 165 = some 0x11 ∧ s.overlayByte 0 168 = some 0x22 ∧
      s.overlayByte 0 162 = none := by decide +kernel

/-- Section 3.7: a fetch at 162 reads 16 bytes; R66: one at the last three addresses reads 3. -/
theorem test_fetch_lengths : looseRec.fetchLen 162 = 16 ∧ looseRec.fetchLen 8189 = 3 := by decide

/-! ## The upstream engine (Section 5.10) -/

/-- Transaction 1: the pointer wraps from offset 31 of page 9 to offset 0. -/
theorem test_pointer_wraps_in_the_page :
    looseRec.nextInPage 0x013F = 0x0120 ∧ looseRec.pageOf 0x013C = 9 ∧
      looseRec.offsetOf 0x013C = 28 := by decide

/-- Transaction 4: a data byte aimed at the descriptor is refused with PROTECTED_WRITE. Member 1 is the
descriptor device here. -/
theorem test_descriptor_write_is_refused :
    let s := (landed base 1 2 (List.replicate 16 none)).updateMember 1 fun m => { m with pointer := 0x0020 }
    let t := after (exec (.writeDataByte 0x99) s)
    t.up.drive = [.nack] ∧ t.log.map (fun r => (r.kind, r.page)) = [(.protectedWrite, some 2)] ∧
      t.pointer 1 = 0x0020 ∧ t.landing = none := by decide +kernel

/-- Transaction 5: the idle limit ends the write after 35 ms with UP_TIMEOUT for page 16. -/
theorem test_idle_limit_names_the_page :
    let s := (landed base 0 16 (List.replicate 32 none)).updateMember 0 fun m => { m with pointer := 0x0200 }
    let t := after (exec .upTimeout s)
    t.now = 1035000 ∧ t.up.phase = .idle ∧ t.log.map (fun r => (r.kind, r.page)) =
      [(.upTimeout, some 16)] := by decide +kernel

/-- Section 5.10, closing paragraph: a full journal refuses the write and leaves pointer and log. -/
theorem test_full_journal_refuses_a_write :
    let s := withPhase (withJournal base (List.replicate 32 entryC)) .address
    let t := after (exec (.addressByte 0x51 .write) s)
    t.up.phase = .notAddressed ∧ t.pointer 0 = 0x013E ∧ t.log = [] := by decide +kernel

/-- Section 5.10, closing paragraph: after PFAIL the STOP of a write of 21 bytes writes FLUSH_ABORT 21. -/
theorem test_flush_abort_counts_the_bytes :
    let s := landed base 0 9 (span 32 0 21 0x31)
    let t := after (exec .writeStop (after (exec .pfailAssertion s)))
    t.journal = [] ∧ t.log.map (fun r => (r.kind, r.detail)) = [(.flushAbort, 21)] := by
  decide +kernel

/-! ## Drain and flush (Section 7.8) -/

/-- Section 7.8 step 1: the drain marks every entry, and B, the earliest offered entry of a qualifying
member, is selected while A is in flight. -/
theorem test_drain_selects_the_strict_member :
    let s := withJournal (withState base 0 .cycle)
      [entry 0 3 (span 32 0 4 1) (.inFlight (flying .cycling)), entryB, entryC]
    let t := after (exec .selection (after (exec .drainRisingEdge s)))
    t.journal.map (fun e => (e.page, e.isPending, e.marked)) =
      [(3, false, true), (0, false, true), (2, true, true)] ∧ t.drainedHigh = false := by
  decide +kernel

/-- R137: a rising edge is a high sample after a low one, so a line that stays high makes no request. -/
theorem test_high_drain_line_makes_no_request :
    let s := withJournal base [entryA]
    let t := after (exec (.drainRisingEdge false) (after (exec .drainRisingEdge s)))
    let u := after (exec (.drainRisingEdge false) (withJournal t [entryA]))
    t.drain.drainHigh = true ∧ t.journal.map (·.marked) = [true] ∧
      u.journal.map (·.marked) = [false] := by decide +kernel

/-- Section 7.8 step 4: the budget of 30 ms ends with one PENDING entry, and FLUSH_EXPIRED has detail 1. -/
theorem test_flush_expires_with_the_unfinished_entries :
    let t := after (exec .flushExpired (after (exec .pfailAssertion (withJournal base [entryA]))))
    t.now = 1030000 ∧ t.log.map (fun r => (r.kind, r.detail)) = [(.flushExpired, 1)] ∧
      t.journal.map Entry.isPending = [true] := by decide +kernel

/-! ## The fault ring (Section 8.6) -/

/-- A record of a number, read or unread. -/
def numbered (n : Nat) (read : Bool) : FaultRecord :=
  { stamp := BitVec.ofNat 32 n, kind := .upTimeout, member := none, page := none, detail := 0,
    lost := false, read := read }

/-- The ring at the start: #1 to #13 read, #14 to #16 unread. -/
def ring : List FaultRecord := (List.range 16).map fun i => numbered (i + 1) (decide (i < 13))

/-- Step 1: #17 replaces #1, which had been read, and carries LOST clear. -/
theorem test_full_ring_drops_its_oldest :
    ((pushRecord (numbered 17 false) ring).map fun r => r.stamp.toNat) = List.range' 2 16 ∧
      ((pushRecord (numbered 17 false) ring).all fun r => !r.lost) = true := by decide +kernel

/-- R154: a record that replaces an unread one carries LOST. -/
theorem test_lost_follows_the_record_replaced :
    ((pushRecord (numbered 17 false) (List.replicate 16 (numbered 1 false))).getLast?.map (·.lost)) =
      some true := by decide +kernel

/-- Step 2: READ_FAULTS returns four records of nine bytes and releases ALERT. -/
theorem test_read_faults_returns_four_records :
    let s := { base with log := pushRecord (numbered 17 false) ring }
    let t := after (exec (.readFaults 1 []) s)
    s.alertLow = true ∧ t.port.tx.map (fun o => o.response.payload.length) = [36] ∧ t.unread = 0 ∧
      t.alertLow = false := by decide +kernel

/-! ## Start-up (Section 9.9) -/

/-- A valid image: the globals of `base`, the record of Table 11-3 and one at 0x51. -/
def image : List Byte :=
  [0x53, 0x4A, 0x01, 0x02, 0x10, 0x14, 0x1E, 0x00, 0x05, 0, 0, 0, 0, 0] ++
    [0x50, 0x26, 0x21, 0x14, 0x05, 0x00] ++ [0x51, 0x12, 0x5F, 0x14, 0x05, 0x00] ++
    List.replicate 36 0 ++ [0xF6, 0xD7]

/-- The image passes every check. -/
theorem test_valid_image : validate 0 image = none := by decide +kernel

/-- A wrong CRC fails check 4. -/
theorem test_wrong_crc_fails_check_4 :
    validate 0 (image.take 62 ++ [0xF6, 0xD8]) = some 4 := by decide +kernel

/-- Section 9.9, t = 0: bus clear succeeds, and the descriptor read is requested with READY low. -/
theorem test_reset_release_clears_the_bus :
    let t := after (exec (.busClearEnd 0 true) (after (exec (.resetRelease lowPins) State.reset)))
    t.os.part = .starting ∧ t.ds.waiting = [.descriptorRead .startUp] ∧ t.os.msel = some 0 ∧
      t.readyHigh = false := by decide +kernel

/-- Section 9.9, 5.0 ms: a count of 3 gives MONITOR. -/
theorem test_three_pulses_give_monitor :
    let pulse := fun s => after (exec .mselPulse s)
    let released := after (exec (.resetRelease lowPins) State.reset)
    let t := after (exec .mselWindowEnd (pulse (pulse (pulse released))))
    t.os.mode = .monitor ∧ t.now = 5000 ∧ t.port.rx = .hunt ∧ t.log = [] := by decide +kernel

/-! ## The maintenance port (Section 10.7) -/

/-- Section 10.7, 40.0 ms: RELOAD with an entry in the journal is refused with JOURNAL_NOT_EMPTY. -/
theorem test_reload_refused_with_an_entry :
    (after (exec (.reload 5 []) (withJournal base [entryA]))).port.tx.map (fun o => o.response.bytes.take 6) =
      [[0x5A, 0x15, 5, 0x05, 1, 16]] := by decide +kernel

/-- Section 10.7, 12.0 ms: STATUS during WRITE_DESCRIPTOR is answered BUSY. -/
theorem test_status_during_a_command_is_busy :
    (after (exec (.status 9 []) (withJob base (.writeBlock image 2 (.polling .inProgress 0))))).port.tx.map
        (fun o => (o.place, o.response.status)) = [(.busy, .busy)] := by decide +kernel

/-- Tables 11-4 and 11-5: the bytes A5 01 07 00 and their CRC are a STATUS frame; its answer has 23 bytes. -/
theorem test_status_frame_byte_by_byte :
    let feed := fun (s : State) (b : Byte) => after (exec (.mrxByte b true) s)
    let t := [0xA5, 0x01, 0x07, 0x00, crc8 [0x01, 0x07, 0x00]].foldl feed base
    t.port.tx.map (fun o => (o.response.code, o.response.seq, o.response.payload.length)) =
      [(0x01, 0x07, 23)] := by decide +kernel

/-! ## Relays, DOZE and SOFT_RESET -/

/-- A relay in RUN whose host is to send a byte. -/
def relayRec (st : RelayStep) (mark : AbortMark) : OpenRelay :=
  { dev := 0x48, inRun := true, mark := mark, step := st, word := [], count := 0 }

def relaying (st : RelayStep) (mark : AbortMark) : State :=
  withBus (withPhase base (.relay (relayRec st mark))) .relay .relay

/-- Section 5.10 transaction 2: the register byte goes downstream with USCL held, and its ACK comes back. -/
theorem test_relay_mirrors_a_byte :
    let t := after (exec (.relayHostByte 0x00) (relaying .hostTurn .clear))
    let u := after (exec (.relayTargetAnswer true) t)
    t.ds.drive = [.byte 0x00] ∧ t.usclHeld = true ∧ u.up.drive = [.ack] ∧ u.usclHeld = false := by
  decide +kernel

/-- Section 6.9, 25.2 ms: the byte of the relay, stretched for 25 ms, is answered NACK and the relay marked
FAILED. -/
theorem test_stretch_fails_the_relay :
    let t := after (exec .stretchTimeout (withMoved (relaying .byteSent .clear) 1000000))
    t.now = 1025000 ∧ t.up.drive = [.nack] ∧ t.ds.ctl = .clearing ∧
      t.log.map (fun r => (r.kind, r.member, r.detail)) = [(.downFault, none, 1)] := by
  decide +kernel

/-- R127: the STOP that ends a relay is stretched for 25 ms, and aborted with no member and no page. -/
theorem test_stretch_of_the_last_stop_aborts_it :
    let t := after (exec .relayStop (relaying .hostTurn .clear))
    let u := after (exec .stretchTimeout t)
    t.ds.ctl = .free ∧ u.now = 1025000 ∧ u.ds.ctl = .clearing ∧ u.up.phase = .idle ∧
      u.log.map (fun r => (r.kind, r.member, r.page, r.detail)) = [(.downFault, none, none, 1)] := by
  decide +kernel

/-- A relay in the downstream slot of its last read byte, which the host has answered NACK. -/
def lastSlot : State := after (exec (.relayHostReadAnswer false) (relaying .readShown .clear))

/-- R127, R112: the slot of the last read byte is stretched through the host's START; the relay is marked
FAILED 25 ms after the release of the slot, and the address byte is answered NACK. -/
theorem test_stretch_of_the_last_slot_after_a_start :
    let t := after (exec .stretchTimeout (after (exec .upstreamStart lastSlot)))
    let u := after (exec (.addressByte 0x52 .read) t)
    t.now = 1025000 ∧ t.ds.ctl = .clearing ∧
      t.log.map (fun r => (r.kind, r.member, r.page, r.detail)) = [(.downFault, none, none, 1)] ∧
      u.up.drive = [.nack] ∧ u.ds.drive = [.release] := by decide +kernel

/-- R127: a STOP and a repeated START 10 ms into that slot wait for it, and its 25 ms count from its own
release; those of the STOP count from the release in the STOP. -/
theorem test_last_slot_holds_up_what_follows :
    let s := atTime lastSlot 1010000
    let t := after (exec .relayStop s)
    let u := after (exec (.relayRepeatedStart 0x52 .read) s)
    t.ds.drive = [.nack, .stop, .release] ∧ (after (exec (.stretchTimeout 2) t)).now = 1025002 ∧
      (after (exec (.stretchTimeout 24000) t)).now = 1049000 ∧
      (∀ d ∈ [2, 24000], (after (exec (.stretchTimeout d) t)).ds.ctl = .clearing) ∧
      u.ds.drive = [.nack, .repeatedStart, .address 0x52 .read] ∧
      (after (exec (.stretchTimeout 2) u)).now = 1025002 ∧
      (after (exec (.stretchTimeout 2) u)).up.drive = [.nack] := by decide +kernel

/-- R122, R130: the choice of a request comes after the STOP, and its lines are the line check's. -/
theorem test_choice_ends_the_last_stop :
    let t := after (exec .relayStop (withWaiting (relaying .hostTurn .clear) [.descriptorRead .port]))
    let u := after (exec (.arbiterChoice false) t)
    u.ds.ctl = .opening (.descriptorRead .port) 1000000 ∧
      (after (exec .stretchTimeout u)).log = [] := by decide +kernel

/-- R124: while the host has the turn DSCL is held by the controller, which is no stretch. -/
theorem test_hold_of_the_controller_is_no_stretch :
    (relaying .hostTurn .clear).dsclHeld = true ∧
      after (exec .stretchTimeout (relaying .hostTurn .clear)) = relaying .hostTurn .clear := by
  decide +kernel

/-- R128: the bits that the target of a relayed read sends are not compared. -/
theorem test_bits_of_the_target_are_not_compared :
    after (exec .collision (relaying .readDue .clear)) = relaying .readDue .clear := by
  decide +kernel

/-- R126: at idle expiry the pending downstream slot of a read byte is answered NACK, then STOP, with a
repeated START seen before its address byte. -/
theorem test_idle_limit_answers_the_pending_slot :
    let t := after (exec .upstreamStart (relaying .readShown .clear))
    (after (exec .upTimeout t)).ds.drive = [.nack, .stop, .release] := by decide +kernel

/-- Table 5-1: the direction is the bit of the current address byte, also where an abort mark refuses it. -/
theorem test_direction_follows_a_refused_address_byte :
    let s := withDir (relaying .hostTurn .failed) .write
    (after (exec (.relayRepeatedStart 0x48 .read) s)).up.dir = some .read := by decide +kernel

/-- R131 step 2: the pulses made before DSCL stays low. -/
theorem test_bus_clear_stops_after_three_pulses :
    let t := after (exec (.busClearSclTimeout 3) (withCtl base .clearing))
    t.ds.drive = [.pulse, .pulse, .pulse, .release] ∧ t.os.part = .haltDown := by decide +kernel

/-- R174: with quiesce time 50 ms a quiet part enters DOZE 50 ms after it became quiet. -/
theorem test_quiet_part_dozes :
    let t := after (exec .quiesceExpiry base)
    t.os.part = .doze ∧ t.os.ret = some .run ∧ t.now = 1050000 := by decide +kernel

/-- R161: the reset at the end of SOFT_RESET's response writes RESET_DISCARD with the entries lost plus 128,
and keeps the mode. -/
theorem test_soft_reset_records_the_entries :
    let armed := after (exec (.softReset 1 [1]) (withJournal base [entryA]))
    let t := after (exec (.responseSent lowPins) armed)
    t.log.map (fun r => (r.kind, r.detail)) = [(.resetDiscard, 129)] ∧ t.os.mode = .service ∧
      t.journal = [] ∧ t.port.rx = .hunt := by decide +kernel

/-! ## Witnesses: the step, the invariants and the resets -/

theorem witness_StepRunsFrontCommand :
    (base.pending = [] ∧ base.inReset = false) ∧
      (State.reset.pending = [] ∧ State.reset.inReset = true) := by decide

theorem witness_CommandsKeepTheQueue :
    exec .mselPulse { State.reset with pending := [.selection] } =
      .next { State.reset with pending := [.selection] } := rfl

theorem witness_HeldInResetTakesNoEvent :
    State.reset.inReset = true ∧ Instr.mselPulse ≠ .powerOnReset ∧
      Instr.mselPulse ≠ .resetLineAsserted ∧ ∀ p, Instr.mselPulse ≠ .resetRelease p :=
  ⟨rfl, nofun, nofun, nofun⟩

theorem witness_WrongByteCountStops :
    base.inReset = false ∧ ([0x01] : List Byte).length ≠ 2 ∧
      (∀ r ∈ [Request.fetch, .fillRead 0, .verifyRead 0, .descriptorRead .startUp,
          .descriptorRead .port],
        (withBus base r (.read 0x51 [0, 0] 2)).ds.ctl = .busy (holder r (.read 0x51 [0, 0] 2))) := by
  decide

/-- A list of 31 entries with the reservation of an open write fills the 32 slots. -/
def fullest : State :=
  { landed (withJournal base (List.replicate 31 entryC)) 1 2 (span 16 0 1 0) with
    log := ring, ds := { base.ds with starvation := 4 } }

theorem witness_BoundsKept : fullest.Bounded ∧ step fullest = .next fullest.tick :=
  ⟨⟨by decide, by decide, by decide⟩, rfl⟩

theorem witness_HeldAgreementKept :
    heldState.HeldRight ∧ base.QuiesceRight ∧ step heldState = .next heldState.tick :=
  ⟨{ rows := by decide
     held := by decide
     place := by decide
     writeRow := by
       simp [State.writing, heldState, withJournal, withState, State.setMember,
         State.updateMember, base, State.reset]
     writePlace := by decide
     landing := nofun
     starting := by decide
     quiesce := ⟨by decide, by decide⟩ },
   ⟨by decide, by decide⟩, rfl⟩

theorem witness_OnePendingPerPageKept :
    heldState.HeldRight ∧ (withJournal heldState [entryA, entryB, entryC, entryB]).OnePending ∧
      heldState.OnePending :=
  ⟨witness_HeldAgreementKept.1, by unfold State.OnePending; decide, by unfold State.OnePending; decide⟩

theorem witness_ReadRecordsFirstKept :
    State.ReadFirst { base with log := ring } ∧
      step { base with log := ring } = .next (State.tick { base with log := ring }) :=
  ⟨by unfold State.ReadFirst; decide, rfl⟩

/-- A composed response. -/
def answer (p : Place) : Outgoing :=
  { place := p, response := { code := 0x01, seq := 1, status := .ok, payload := [] } }

/-- A response of each place being sent, the second with SOFT_RESET armed. -/
def sending (p : Place) (j : Job) : State :=
  { withJob base j with port := { (withJob base j).port with tx := [answer p] } }

theorem witness_ResponseSentFreesItsPlace :
    ((sending .busy .answered).inReset = false ∧ (sending .busy .answered).port.tx = [answer .busy] ∧
        (answer .busy).place = .busy) ∧
      ((sending .command .answered).port.tx = [answer .command] ∧ (answer .command).place = .command ∧
        (sending .command .answered).job ≠ some .resetArmed) ∧
      ((sending .command .resetArmed).port.tx = [answer .command] ∧
        (sending .command .resetArmed).job = some .resetArmed ∧
        (sending .command .resetArmed).os.mode ≠ .off) := by decide

theorem witness_ResetReleaseBeginsStartUp :
    State.reset.inReset = true ∧ State.reset.os.mode = .off := by decide

/-- A part that waits in STARTING for the end of the MSEL window with a count. -/
def windowed (d : Prepared) (pfail : Bool) (n : Nat) : State :=
  { withStart base (.leaving d) with
    os := { (withStart base (.leaving d)).os with msel := some n }
    drain := { base.drain with pfailAsserted := pfail } }

theorem witness_MselWindowSetsTheMode :
    (∀ n ∈ [0, 3, 5, 7],
      (windowed .run false n).inReset = false ∧ (windowed .run false n).os.msel = some n) ∧
      (∀ d ∈ [Prepared.run, .passStrap, .passInvalid 4],
        (windowed d false 3).os.part = .starting ∧ (windowed d false 3).os.start = some (.leaving d) ∧
          (windowed d false 3).drain.pfailAsserted = false) ∧
      (windowed .run true 3).drain.pfailAsserted = true := by decide

/-- The start-up descriptor read is in progress; its window opened 8999 µs ago. -/
def loading (msel : Option Nat) : State :=
  let st := withStart base (.descriptorRead { asking := .inProgress, window := some 991001 })
  withBus { st with os := { st.os with msel := msel } } (.descriptorRead .startUp)
    (.read 0x50 [0, 0] 64)

theorem witness_DescriptorReadEndTakesTheImage :
    (∀ m ∈ [none, some 0],
      (loading m).inReset = false ∧
        (loading m).ds.ctl = .busy (holder (.descriptorRead .startUp) (.read 0x50 [0, 0] 64)) ∧
        (loading m).os.start =
          some (.descriptorRead { asking := .inProgress, window := some 991001 }) ∧
        (loading m).os.part = .starting ∧ (loading m).os.msel = m) ∧
      image.length = 64 ∧ validate (loading none).os.ads image = none ∧
      validate (loading none).os.ads (List.replicate 64 0) = some 2 ∧
      (List.replicate 64 (0 : Byte)).length = 64 ∧ (loading none).now + 1000 < 991001 + 10000 ∧
      (let s := { loading none with now := 1000001 }
       s.ds.ctl = (loading none).ds.ctl ∧ 991001 + 10000 ≤ s.now + 1000) ∧
      ReadNack.wordAddress ≠ .deviceW ∧ ((usedRecords image)[0]?).map (·.journaled) = some true := by
  decide +kernel

theorem witness_StartUpAccessRepeatsInItsWindow :
    (let a : Access := { asking := .dueAt 1000500, window := some 991001 }
     (withStart base (.descriptorRead a)).inReset = false ∧
       max (withStart base (.descriptorRead a)).now 1000500 < 991001 + 10000 ∧
       (withStart base (.descriptorRead a)).os.start = some (.descriptorRead a) ∧
       (withStart base (.probing 1 a)).os.start = some (.probing 1 a)) ∧
      (∀ k ∈ [Asking.noMore, .waiting, .inProgress, .dueAt 1000500, .afterClear],
        ∀ m ∈ [none, some 3],
        let a : Access := { asking := k, window := some 990000 }
        let s := withMsel (withStart base (.descriptorRead a)) m
        s.inReset = false ∧ s.os.start = some (.descriptorRead a) ∧ s.os.part = .starting ∧
          s.os.msel = m) := by decide +kernel

theorem witness_ProbeSetsTheMemberState :
    (∀ w ∈ [991001, 991000],
      let a : Access := { asking := .inProgress, window := some w }
      let s := withBus (withStart base (.probing 1 a)) (.probe 1) (.addressOnly 0x50)
      s.inReset = false ∧ s.ds.ctl = .busy (holder (.probe 1) (.addressOnly 0x50)) ∧
        (1 : MemberIx).val < s.members.length ∧ s.os.start = some (.probing 1 a)) ∧
      (base.now + 1000 < 991001 + 10000 ∧ 991000 + 10000 ≤ base.now + 1000) ∧
      (∀ k ∈ [Asking.noMore, .waiting, .inProgress, .dueAt 1000500, .afterClear],
        let a : Access := { asking := k, window := some 990000 }
        (withStart base (.probing 1 a)).os.start = some (.probing 1 a)) ∧
      (base.info 1).journaled = true ∧
      (∀ j : MemberIx, 2 ≤ j.val → (base.info j).journaled = false) := by
  decide +kernel

/-! ## Witnesses: the upstream engine -/

theorem witness_LookupFindsJournaledMembers :
    base.members.length ≤ 8 ∧ base.members.Pairwise (fun a b => a.info.bus ≠ b.info.bus) ∧
      base.journaledAt 0x51 = some 0 ∧ base.memberAt 0x52 = some 2 ∧ base.journaledAt 0x52 = none ∧
      base.memberAt 0x53 = none := by decide +kernel

theorem witness_StartAndStopFrameTransactions :
    base.inReset = false ∧ base.up.phase = .idle ∧ (withPhase base .address).up.phase = .address ∧
      (withPhase base .notAddressed).up.phase = .notAddressed ∧
      (withPart base .doze (some .run)).os.part = .doze := by decide

/-- The address byte of a host is at its acknowledge slot. -/
def addressed : State := withPhase base .address

theorem witness_AdmissionDecidesWrites :
    addressed.inReset = false ∧ addressed.up.phase = .address ∧ addressed.os.part = .run ∧
      addressed.journaledAt 0x51 = some 0 ∧ addressed.memberState 0 ≠ .held ∧
      (withJournal addressed (List.replicate 31 entryC)).journal.length < 32 ∧
      32 ≤ (withJournal addressed (List.replicate 32 entryC)).journal.length ∧
      (withState addressed 0 .held).journaledAt 0x51 = some 0 ∧
      (withState addressed 0 .held).memberState 0 = .held := by decide +kernel

theorem witness_BusyPolicyDecidesReads :
    let s := withJournal addressed
      [entry 0 6 threeRuns (.inFlight (flying .issuing)),
       entry 1 0 (span 16 0 4 1) (.inFlight (flying .issuing))]
    s.inReset = false ∧ s.up.phase = .address ∧ s.os.part = .run ∧
      (s.journaledAt 0x50 = some 1 ∧ (s.slot 1).isSome = true ∧ (s.info 1).hold = false) ∧
      (s.journaledAt 0x51 = some 0 ∧ (s.info 0).hold = true) ∧
      (addressed.journaledAt 0x50 = some 1 ∧ addressed.slot 1 = none) ∧
      (addressed.overlayByte 1 (addressed.pointer 1) = none ∧ addressed.memberState 1 ≠ .cycle ∧
        (withState addressed 1 .cycle).journaledAt 0x50 = some 1 ∧
        (withState addressed 1 .cycle).memberState 1 = .cycle) ∧
      (let h := withJournal addressed [entry 0 9 (span 32 30 1 0x77) .pending]
       h.journaledAt 0x51 = some 0 ∧ h.slot 0 = none ∧ h.overlayByte 0 (h.pointer 0) = some 0x77) := by
  decide +kernel

theorem witness_OtherAddressesAreRefusedOrRelayed :
    (∀ p ∈ [PartState.starting, .flush, .haltDown, .passthrough],
      (withPart addressed p none).inReset = false ∧ (withPart addressed p none).up.phase = .address ∧
        (withPart addressed p none).os.part = p) ∧
      (addressed.os.part = .run ∧ addressed.journaledAt 0x52 = none) ∧
      (withPhase base (.relayWait 0x48 true 1000000)).up.phase = .relayWait 0x48 true 1000000 := by
  decide +kernel

theorem witness_WordAddressSetsPointerAndLanding :
    (∀ w ∈ [openWrite 0 [], openWrite 0 [0x01]],
      (withPhase base (.write w)).inReset = false ∧ (withPhase base (.write w)).up.phase = .write w ∧
        w.word.length < (base.info w.member).wordWidth ∧ w.member.val < base.members.length) ∧
      (openWrite 0 []).word.length + 1 < (base.info 0).wordWidth ∧
      (openWrite 0 [0x01]).word.length + 1 = (base.info 0).wordWidth := by decide +kernel

/-- A write of a member at a pointer, with a mark and an empty landing buffer. -/
def writing (m : MemberIx) (ptr : Nat) (mark : AbortMark) : State :=
  ({ withPhase base (.write { openWrite m [0, 0] with mark := mark }) with
      landing := some { member := m, page := 0, image := List.replicate 32 none } }).updateMember m
    fun mem => { mem with pointer := ptr }

theorem witness_DataByteStoredOrRefused :
    (∀ m ∈ [(0 : MemberIx), 1], ∀ mark ∈ [AbortMark.clear, .prot, .pfail],
      (writing m 0x3F mark).inReset = false ∧
        (writing m 0x3F mark).up.phase = .write { openWrite m [0, 0] with mark := mark } ∧
        ((writing m 0x3F mark).info m).wordWidth ≤ (openWrite m [0, 0]).word.length ∧
        m.val < (writing m 0x3F mark).members.length ∧
        (writing m 0x3F mark).landing.isSome = true) ∧
      (((writing 1 0x40 .clear).info 1).bus = (writing 1 0x40 .clear).descriptorDev ∧
        ¬ (writing 1 0x40 .clear).pointer 1 < 0x40) ∧
      ((writing 0 0x3F .clear).info 0).bus ≠ (writing 0 0x3F .clear).descriptorDev ∧
      (((writing 1 0x3F .clear).info 1).bus = (writing 1 0x3F .clear).descriptorDev ∧
        (writing 1 0x3F .clear).pointer 1 < 0x40) ∧
      (let s := { writing 1 0x3F .prot with landing := none }
       s.up.phase = .write { openWrite 1 [0, 0] with mark := .prot } ∧ s.landing = none) := by
  decide +kernel

theorem witness_HandOverMergesIntoItsTarget :
    let s := landed (withJournal base [entryB, entryA]) 0 3 (span 32 4 8 0xA2)
    s.inReset = false ∧ s.up.phase = .write (openWrite 0 [0, 0]) ∧ (openWrite 0 [0, 0]).mark = .clear ∧
      s.landing = some { member := 0, page := 3, image := span 32 4 8 0xA2 } ∧
      (span 32 4 8 0xA2).validCount ≠ 0 ∧ s.mergeTarget 0 3 = some 1 ∧ s.journal[1]? = some entryA ∧
      entryA.image.length = (span 32 4 8 0xA2).length := by decide +kernel

theorem witness_HandOverAllocatesAtTheTail :
    let s := landed (withJournal base (List.replicate 31 entryB)) 0 3 (span 32 4 1 0xA2)
    let h := landed heldState 0 3 (span 32 4 1 0xA2)
    (s.inReset = false ∧ s.up.phase = .write (openWrite 0 [0, 0]) ∧
      s.landing = some { member := 0, page := 3, image := span 32 4 1 0xA2 } ∧
      (span 32 4 1 0xA2).validCount ≠ 0 ∧ s.mergeTarget 0 3 = none ∧ s.journal.length < 32 ∧
      s.memberState 0 ≠ .held) ∧
      (h.mergeTarget 0 3 = none ∧ h.journal.length < 32 ∧ h.memberState 0 = .held) := by
  decide +kernel

theorem witness_MergeTargetFollowsTheOrder :
    let s := withJournal base [entryA, entryB, entryC]
    ((s.info 0).strict = false ∧ s.OnePending ∧ s.mergeTarget 0 3 = some 0 ∧
      s.mergeTarget 0 4 = none) ∧
      ((s.info 1).strict = true ∧ s.mergeTarget 1 2 = some 2 ∧ s.mergeTarget 1 0 = none) :=
  ⟨⟨by decide, by unfold State.OnePending; decide, by decide +kernel, by decide +kernel⟩,
   by decide +kernel⟩

theorem witness_WriteEndsWithoutHandOver :
    (∀ mark ∈ [AbortMark.clear, .prot, .pfail],
      (writing 0 0 mark).inReset = false ∧
        (writing 0 0 mark).up.phase = .write { openWrite 0 [0, 0] with mark := mark }) ∧
      (writing 0 0 .clear).landing =
        some { member := 0, page := 0, image := List.replicate 32 none } ∧
      (PageImage.validCount (List.replicate 32 none)) = 0 ∧
      (∀ mark ∈ [AbortMark.clear, .pfail],
        let s := { writing 0 0 mark with
          landing := some { member := 0, page := 9, image := span 32 0 1 0 } }
        s.up.phase = .write { openWrite 0 [0, 0] with mark := mark } ∧
          (span 32 0 1 0).validCount ≠ 0) ∧
      (let s := { writing 0 0 .prot with landing := none }
       s.up.phase = .write { openWrite 0 [0, 0] with mark := .prot } ∧ s.landing = none) ∧
      (∀ w ∈ [openWrite 0 [], openWrite 0 [0x01]],
        (withPhase base (.write w)).up.phase = .write w ∧
          (withPhase base (.write w)).landing = none) := by decide +kernel

/-- A read of member 0 that serves. -/
def serving (buffer : Option FetchBuffer) : OpenRead :=
  { member := 0, cond := .serving, buffer := buffer, recorded := false, ended := false }

/-- A read of member 0 that waits for a fetch. -/
def waitingRead (st : FetchState) : OpenRead :=
  { serving none with cond := .waiting 1000000 { state := st, addr := 0x013E } }

theorem witness_IdleLimitEndsThePhase :
    (addressed.inReset = false ∧ addressed.up.idle = some 1000000 ∧ addressed.up.phase = .address) ∧
      (∀ mark ∈ [AbortMark.clear, .prot, .pfail], ∀ img ∈ [List.replicate 32 none, span 32 0 1 0],
        let s := { writing 0 0 mark with landing := some { member := 0, page := 9, image := img } }
        s.up.idle = some 1000000 ∧ s.up.phase = .write { openWrite 0 [0, 0] with mark := mark }) ∧
      (span 32 0 1 0).validCount ≠ 0 ∧
      ((openWrite 0 [0x01]).word.length < (base.info 0).wordWidth ∧
        (withPhase base (.write (openWrite 0 [0x01]))).landing = none ∧
        (withPhase base (.write (openWrite 0 [0x01]))).up.idle = some 1000000) ∧
      ((withRead base (serving none)).up.idle = some 1000000 ∧
        (withRead base (serving none)).up.phase = .read ∧
        (withRead base (serving none)).read = some (serving none)) ∧
      (∀ mark ∈ [AbortMark.clear, .prot, .failed],
        ∀ st ∈ [RelayStep.hostTurn, .readShown, .readDone, .restarted true, .restarted false],
        (relaying st mark).up.idle = some 1000000 ∧
          (relaying st mark).up.phase = .relay (relayRec st mark)) ∧
      (∀ moved ∈ [1009997, 1009996], ∀ c ∈ [true, false],
        let s := withClosing (withMove (relaying .readDone .clear) [.nack] moved) c
        s.ds.closing = c ∧ (atTime s 1035000).moving = decide (moved = 1009997)) := by
  decide +kernel

/-! ## Witnesses: reads and relays -/

theorem witness_DueByteComesFromItsSource :
    let a := (0x013E + 1) % 8192
    let hit := withRead (withJournal base [entry 0 9 (span 32 31 1 0x77) .pending]) (serving none)
    let buf : FetchBuffer := { start := 0x013E, bytes := [1, 2] }
    let buffered := withRead base (serving (some buf))
    let cyc := withRead (withState base 0 .cycle) (serving none)
    let bare := withRead base (serving none)
    (∀ s ∈ [hit, buffered, cyc, bare],
      s.inReset = false ∧ s.up.phase = .read ∧ (0 : MemberIx).val < s.members.length ∧
        a = (s.pointer 0 + 1) % (s.info 0).capacity ∧ s.os.part ≠ .haltDown) ∧
      (hit.read = some (serving none) ∧ hit.overlayByte 0 a = some 0x77) ∧
      (buffered.read = some (serving (some buf)) ∧ buffered.overlayByte 0 a = none ∧
        buf.byteAt a = some 2) ∧
      (cyc.overlayByte 0 a = none ∧ cyc.memberState 0 = .cycle) ∧
      (bare.overlayByte 0 a = none ∧ bare.memberState 0 ≠ .cycle) ∧
      (serving none).ended = false ∧ (serving none).cond = .serving ∧
      (let r : OpenRead := { serving none with cond := .underrun, recorded := true }
       (withRead base r).read = some r ∧ r.cond = .underrun ∧ r.ended = false) ∧
      (withPart bare .haltDown (some .run)).os.part = .haltDown := by decide +kernel

theorem witness_ReadEndsWithItsRecord :
    let s := withRead (withJournal base [entry 0 6 threeRuns (.inFlight (flying .issuing))]) (serving none)
    s.inReset = false ∧ s.up.phase = .read ∧ s.read = some (serving none) ∧
      s.slot 0 = some (flying .issuing) ∧ (flying .issuing).due = none ∧
      s.inProgress (.issue 0) = false := by decide +kernel

theorem witness_FetchEndServesOrFails :
    let s := withBus (withRead base (waitingRead .inProgress)) .fetch (.read 0x51 [0x01, 0x3E] 1)
    s.inReset = false ∧ s.ds.ctl = .busy (holder .fetch (.read 0x51 [0x01, 0x3E] 1)) ∧
      s.read = some (waitingRead .inProgress) ∧
      (waitingRead .inProgress).cond = .waiting 1000000 { state := .inProgress, addr := 0x013E } ∧
      0x013E = s.pointer 0 ∧ ([0x55] : List Byte).head? = some 0x55 ∧
      ReadNack.deviceR ≠ .deviceW ∧ (waitingRead .inProgress).recorded = false ∧
      (∀ o ∈ [none, some { serving none with cond := .underrun }, some (waitingRead .waitingGrant)],
        ({ s with read := o } : State).ds.ctl = s.ds.ctl ∧
          (({ s with read := o } : State).fetchOf 0).map (·.state) ≠ some .inProgress) := by
  decide

theorem witness_WaitingReadGoesOnOrExpires :
    (let r := waitingRead (.dueAgain 1000200)
     let s := withRead base r
     let c := withRead (withState base 0 .cycle) r
     (s.inReset = false ∧ s.read = some r ∧
       r.cond = .waiting 1000000 { state := .dueAgain 1000200, addr := 0x013E } ∧
       s.memberState 0 ≠ .cycle ∧ r.recorded = false) ∧
       (c.inReset = false ∧ c.read = some r ∧ c.memberState 0 = .cycle)) ∧
      (∀ st ∈ [FetchState.heldForCycle, .waitingGrant, .inProgress, .dueAgain 1000200],
        (withRead base (waitingRead st)).inReset = false ∧
          (withRead base (waitingRead st)).read = some (waitingRead st) ∧
          (waitingRead st).cond = .waiting 1000000 { state := st, addr := 0x013E }) ∧
      (withBus (withRead base (waitingRead .inProgress)) .fetch .relay).ds.ctl =
        .busy (holder .fetch .relay) ∧
      (withCtl (withRead base (waitingRead .waitingGrant)) (.opening .fetch 1000000)).ds.ctl =
        .opening .fetch 1000000 := by decide +kernel

theorem witness_RelayMirrorsEachByte :
    (∀ st ∈ [RelayStep.hostTurn, .byteSent, .addressSent, .readDue, .readShown],
      (relaying st .clear).inReset = false ∧
        (relaying st .clear).up.phase = .relay (relayRec st .clear) ∧
        (relayRec st .clear).mark = .clear) ∧
      (relaying .hostTurn .clear).relayProtected (relayRec .hostTurn .clear) = false ∧
      (relaying .addressSent .clear).up.dir ≠ some .read ∧
      (withDir (relaying .addressSent .clear) .read).up.dir = some .read ∧
      (∀ mark ∈ [AbortMark.prot, .failed], ∀ st ∈ [RelayStep.hostTurn, .readDone, .readShown],
        (relaying st mark).up.phase = .relay (relayRec st mark) ∧ (relayRec st mark).mark ≠ .clear) := by
  decide

/-- A relayed write to the descriptor device, begun in RUN at a word address. -/
def descriptorRelay (word : List Byte) (count : Nat) : OpenRelay :=
  { dev := 0x50, inRun := true, mark := .clear, step := .hostTurn, word := word, count := count }

theorem witness_RelayedDescriptorIsProtected :
    (∀ r ∈ [descriptorRelay [0x00, 0x3F] 0, descriptorRelay [0x02, 0x00] 0,
        descriptorRelay [0x00, 0x78] 8, descriptorRelay [0x01, 0xFF] 1],
      let s := withPhase base (.relay r)
      let t := { s with up := { s.up with dir := some .write } }
      t.inReset = false ∧ t.up.phase = .relay r ∧ r.mark = .clear ∧ r.step = .hostTurn ∧
        r.inRun = true ∧ t.up.dir = some .write ∧ r.dev = t.descriptorDev) ∧
      ((256 * 0x00 + 0x3F) % 512 < 0x40 ∧ (256 * 0x02 + 0x00) % 512 < 0x40) ∧
      ((256 * 0x00 + 0x78) % 512 + 8) % 64 = 0 ∧ ((256 * 0x01 + 0xFF) % 512 + 1) % 64 = 0 := by
  decide

theorem witness_RelayEndsAtStopOrRestart :
    (∀ mark ∈ [AbortMark.clear, .prot, .failed],
      (relaying .hostTurn mark).inReset = false ∧
        (relaying .hostTurn mark).up.phase = .relay (relayRec .hostTurn mark)) ∧
      ((relaying .hostTurn .clear).os.part = .run ∧
        (relaying .hostTurn .clear).journaledAt 0x52 = none) ∧
      (∀ p ∈ [PartState.passthrough, .flush, .haltDown, .starting],
        (withPart (relaying .hostTurn .clear) p none).os.part = p) ∧
      (∀ l ∈ [List.replicate 31 entryC, List.replicate 32 entryC],
        let s := withJournal (relaying .hostTurn .clear) l
        s.up.phase = .relay (relayRec .hostTurn .clear) ∧ s.os.part = .run ∧
          s.journaledAt 0x51 = some 0 ∧ s.memberState 0 ≠ .held ∧ s.journal = l) ∧
      ((withState (relaying .hostTurn .clear) 0 .held).journaledAt 0x51 = some 0 ∧
        (withState (relaying .hostTurn .clear) 0 .held).memberState 0 = .held) ∧
      (let s := withJournal (relaying .hostTurn .clear)
        [entry 0 6 threeRuns (.inFlight (flying .issuing)),
         entry 1 0 (span 16 0 4 1) (.inFlight (flying .issuing))]
       (s.journaledAt 0x50 = some 1 ∧ (s.slot 1).isSome = true ∧ (s.info 1).hold = false) ∧
         (s.journaledAt 0x51 = some 0 ∧ (s.slot 0).isSome = true ∧ (s.info 0).hold = true)) ∧
      ((relaying .hostTurn .clear).journaledAt 0x50 = some 1 ∧
        (relaying .hostTurn .clear).slot 1 = none) ∧
      (∀ moved ∈ [974997, 974996], ∀ c ∈ [true, false],
        let s := withClosing (withMove (relaying .readDone .clear) [.nack] moved) c
        s.ds.closing = c ∧ s.moving = decide (moved = 974997)) ∧
      (∀ st ∈ [RelayStep.readShown, .restarted true, .restarted false],
        (relaying st .clear).up.phase = .relay (relayRec st .clear)) := by decide +kernel

/-! ## Witnesses: the commit engine -/

theorem witness_RunsAreTheMaximalSpans :
    (threeRuns.byteAt 0).isSome = true ∧ (threeRuns.byteAt 31).isSome = true ∧
      (∀ o, (threeRuns.byteAt o).isSome = true → 0 ≤ o ∧ o ≤ 31) :=
  ⟨by decide +kernel, by decide +kernel, fun o h => by
    refine ⟨Nat.zero_le _, ?_⟩
    by_contra hc
    have : threeRuns[o]? = none := List.getElem?_eq_none (by simp [threeRuns]; omega)
    simp [PageImage.byteAt, this] at h⟩

theorem witness_SelectionPlansTheEarliestEntry :
    let gap : Entry := { entry 1 0 [some 1, none, some 2] .pending with marked := true }
    let full : Entry := { entry 1 0 [some 1, some 2] .pending with marked := true }
    let s := withJournal base [entryA, { entryA with page := 4, marked := true }]
    s.inReset = false ∧ s.journal[1]? = some { entryA with page := 4, marked := true } ∧
      entryA.isPending = true ∧ s.selectionOpen = true ∧ s.offered 1 = true ∧
      s.qualifies 0 = true ∧ s.offered 0 = false ∧ (s.info 0).fill = false ∧
      (∀ e ∈ [gap, full],
        (withJournal base [e]).selectionOpen = true ∧ (withJournal base [e]).offered 0 = true ∧
          (withJournal base [e]).qualifies 1 = true ∧ ((withJournal base [e]).info 1).fill = true) ∧
      gap.image.span.len ≠ gap.image.validCount ∧ full.image.span.len = full.image.validCount := by
  decide +kernel

/-- A commit transaction of member 0's entry in progress. -/
def committing (st : Stage) (n : Nat) : State :=
  withBus (withJournal base [entry 0 6 threeRuns (.inFlight (flying st))]) (st.request 0)
    (.read 0x51 [0x00, 0xC0] n)

theorem witness_FillReadEndKeepsTheGapBytes :
    let s := committing .filling 1
    let held := { s with read := some (serving none), up := { s.up with phase := .read } }
    (s.inReset = false ∧ s.ds.ctl = .busy (holder (.fillRead 0) (.read 0x51 [0x00, 0xC0] 1)) ∧
      s.slotEntry 0 = some (entry 0 6 threeRuns (.inFlight (flying .filling))) ∧
      (flying .filling).stage = .filling ∧ s.readHold 0 = false) ∧
      (held.slotEntry 0 = s.slotEntry 0 ∧ held.readHold 0 = true) ∧
      (∀ n ∈ [1004999, 1005000], ({ s with now := n } : State).slotEntry 0 = s.slotEntry 0) ∧
      1004999 < (flying .filling).busyStart.getD 1000000 + 1000 * (s.info 0).cycleMs ∧
      (flying .filling).busyStart.getD 1000000 + 1000 * (s.info 0).cycleMs ≤ 1005000 ∧
      ReadNack.wordAddress ≠ .deviceW := by decide +kernel

theorem witness_IssueEndStartsTheCycle :
    let s := committing .issuing 1
    (s.inReset = false ∧ s.ds.ctl = .busy (holder (.issue 0) (.read 0x51 [0x00, 0xC0] 1)) ∧
      s.slotEntry 0 = some (entry 0 6 threeRuns (.inFlight (flying .issuing))) ∧
      (0 : MemberIx).val < s.members.length) ∧
      (∀ n ∈ [1004999, 1005000], ({ s with now := n } : State).slotEntry 0 = s.slotEntry 0) ∧
      1004999 < (flying .issuing).busyStart.getD 1000000 + 1000 * (s.info 0).cycleMs ∧
      (flying .issuing).busyStart.getD 1000000 + 1000 * (s.info 0).cycleMs ≤ 1005000 ∧
      WriteNack.data ≠ .deviceW ∧
      (∀ st ∈ [FetchState.waitingGrant, .dueAgain 1000200],
        (withRead s (waitingRead st)).fetchOf 0 = some { state := st, addr := 0x013E } ∧
          (withRead s (waitingRead st)).slotEntry 0 = s.slotEntry 0) := by decide +kernel

/-- An entry whose next step is due. -/
def dueFlight (st : Stage) : Flight := { flying st with due := some 1000200 }

theorem witness_DueTimeRaisesTheRequest :
    (∀ st ∈ [Stage.cycling, .issuing, .filling],
      let s := withJournal base [entry 0 6 threeRuns (.inFlight (dueFlight st))]
      s.inReset = false ∧ s.slotEntry 0 = some (entry 0 6 threeRuns (.inFlight (dueFlight st))) ∧
        (dueFlight st).due = some 1000200 ∧ s.readHold 0 = false) ∧
      (let s := withRead (withJournal base [entry 0 6 threeRuns (.inFlight (dueFlight .issuing))])
        (serving none)
       s.slotEntry 0 = some (entry 0 6 threeRuns (.inFlight (dueFlight .issuing))) ∧
         s.readHold 0 = true) := by decide +kernel

/-- A poll of a member in its cycle, at a run cursor. -/
def polling (m : MemberIx) (cursor : Nat) (now : Nat) : State :=
  { withBus
      (withState
        (withJournal base
          [entry m 1 (span 16 0 2 1)
            (.inFlight { flying .cycling with cursor := cursor, cycleStart := some 1000000 })])
        m .cycle)
      (.poll m) (.addressOnly 0x51) with
    now := now }

theorem witness_PollEndMovesTheEntryOn :
    (∀ m ∈ [(0 : MemberIx), 1], ∀ c ∈ [0, 1],
      let s := polling m c 1004999
      s.inReset = false ∧ s.ds.ctl = .busy (holder (.poll m) (.addressOnly 0x51)) ∧
        (s.slotEntry m).bind Entry.flight? =
          some { flying .cycling with cursor := c, cycleStart := some 1000000 } ∧
        s.memberState m = .cycle ∧ s.readHold m = false) ∧
      (0 + 1 < (flying .cycling).runs.length ∧ (flying .cycling).runs.length ≤ 1 + 1) ∧
      ((polling 0 1 1004999).info 0).verify = false ∧ ((polling 1 1 1004999).info 1).verify = true ∧
      (polling 0 0 1004999).now < 1000000 + 1000 * ((polling 0 0 1004999).info 0).cycleMs ∧
      1000000 + 1000 * ((polling 0 0 1005000).info 0).cycleMs ≤ (polling 0 0 1005000).now ∧
      (let s := withRead (polling 0 1 1004999) (waitingRead .heldForCycle)
       s.fetchOf 0 = some { state := .heldForCycle, addr := 0x013E } ∧ s.memberState 0 = .cycle ∧
         s.slotEntry 0 = (polling 0 1 1004999).slotEntry 0) ∧
      (let b : FetchBuffer := { start := 0x0020, bytes := [1, 2] }
       (withRead (polling 0 1 1004999) (serving (some b))).read = some (serving (some b))) := by
  decide +kernel

theorem witness_CycleTimeoutFailsTheAttempt :
    cycling.inReset = false ∧
      ((cycling.slotEntry 0).bind Entry.flight?).bind (·.cycleStart) = some 1000000 ∧
      cycling.inProgress (.poll 0) = false ∧
      (((polling 0 0 1000000).slotEntry 0).bind Entry.flight?).bind (·.cycleStart) = some 1000000 ∧
      (polling 0 0 1000000).inProgress (.poll 0) = true := by decide +kernel

theorem witness_VerifyReadEndCompares :
    let last : Flight := { flying .verifying with cursor := 1 }
    let f := flying .verifying
    let s := committing .verifying 1
    let t := withBus (withJournal base [entry 0 6 threeRuns (.inFlight last)]) (.verifyRead 0)
      (.read 0x51 [0x00, 0xC2] 1)
    (s.inReset = false ∧ s.ds.ctl = .busy (holder (.verifyRead 0) (.read 0x51 [0x00, 0xC0] 1)) ∧
      s.slotEntry 0 = some (entry 0 6 threeRuns (.inFlight f)) ∧
      runBytes threeRuns f f.currentRun = [0x55] ∧ f.cursor + 1 < f.runs.length) ∧
      (t.slotEntry 0 = some (entry 0 6 threeRuns (.inFlight last)) ∧
        runBytes threeRuns last last.currentRun = [0x55] ∧ last.runs.length ≤ last.cursor + 1) ∧
      ([0x56] : List Byte) ≠ runBytes threeRuns f f.currentRun ∧
      (∀ n ∈ [1004999, 1005000], ({ s with now := n } : State).slotEntry 0 = s.slotEntry 0) ∧
      1004999 < f.busyStart.getD 1000000 + 1000 * (s.info 0).cycleMs ∧
      f.busyStart.getD 1000000 + 1000 * (s.info 0).cycleMs ≤ 1005000 ∧
      ReadNack.deviceR ≠ .deviceW := by decide +kernel

theorem witness_FailedAttemptRetriesOrHolds :
    let again := { entry 0 6 threeRuns (.inFlight (flying .issuing)) with attempts := 1 }
    cycling.slotEntry 0 = cycling.journal.head? ∧ (0 : MemberIx).val < cycling.members.length ∧
      (cycling.slotEntry 0).map (·.attempts + 1) = some (cycling.info 0).retryLimit ∧
      (withJournal base [again]).slotEntry 0 = some again ∧
      ((withJournal base [again]).info 0).retryLimit < again.attempts + 1 := by decide +kernel

/-! ## Witnesses: the downstream bus -/

theorem witness_GrantMakesTheStart :
    (contention.inReset = false ∧ contention.ds.ctl = .free ∧ contention.choice = some .relay ∧
      contention.up.phase = .relayWait 0x48 true 1000000) ∧
      (let s := withWaiting contention [.issue 1]
       s.choice = some (.issue 1) ∧ s.slotEntry 1 = s.journal.head?) ∧
      (let s := withCtl contention (.opening .relay 999000)
       s.ds.ctl = .opening .relay 999000 ∧ s.now ≤ 999000 + 1000) ∧
      ((withRead base (waitingRead .waitingGrant)).read = some (waitingRead .waitingGrant)) ∧
      (let j : Job := .writeBlock image 7 (.writing .waiting none)
       (withJob base j).job = some j) ∧
      (∀ r ∈ [Request.fetch, .probe 1, .descriptorRead .port, .descriptorWrite, .descriptorPoll],
        (withWaiting base [r]).choice = some r) := by
  decide +kernel

theorem witness_ArbiterChoosesInOrder :
    contention.choice = some .relay ∧ contention.ds.starvation ≠ 4 ∧
      (let s := { contention with ds := { contention.ds with starvation := 4 } }
       s.choice = some (.poll 0)) ∧
      (withWaiting contention [.issue 1]).choice = some (.issue 1) ∧
      (withWaiting base [.descriptorRead .port]).choice = some (.descriptorRead .port) ∧
      (withWaiting base [.probe 1, .descriptorWrite]).choice = some (.probe 1) ∧
      (Request.probe 1).isService = true := by decide +kernel

theorem witness_StarvationCounterFollowsGrants :
    (contention.inReset = false ∧ contention.ds.ctl = .free ∧ contention.choice = some .relay ∧
      (4 : Nat) = min 4 (3 + 1)) ∧
      (let s := { contention with ds := { contention.ds with starvation := 4 } }
       s.choice = some (.poll 0) ∧ s.commitChoice.isSome = true) ∧
      (let s := withCtl contention (.opening .relay 999000)
       s.ds.ctl = .opening .relay 999000 ∧ s.now ≤ 999000 + 1000) ∧
      ((withCtl base .clearing).ds.ctl = .clearing ∧ (withCtl base .clearing).os.part ≠ .haltDown) ∧
      ((sending .command .resetArmed).port.tx = [answer .command] ∧
        (sending .command .resetArmed).job = some .resetArmed) := by decide +kernel

theorem witness_AbortReportsToTheHolder :
    (∀ r ∈ [Request.poll 0, .fillRead 0, .verifyRead 0, .issue 0, .fetch, .relay,
        .descriptorRead .startUp, .probe 1, .descriptorRead .port, .descriptorWrite, .descriptorPoll],
      (withBus base r .relay).inReset = false ∧
        (withBus base r .relay).ds.ctl = .busy (holder r .relay)) ∧
      (let s := withBus (withRead base (waitingRead .inProgress)) .fetch .relay
       s.ds.ctl = .busy (holder .fetch .relay) ∧ s.read = some (waitingRead .inProgress) ∧
         (waitingRead .inProgress).recorded = false) ∧
      (∀ st ∈ [RelayStep.addressSent, .byteSent, .readDue, .hostTurn, .readShown, .readDone,
          .restarted true, .restarted false], ∀ mark ∈ [AbortMark.clear, .prot],
        ∀ acts ∈ [[DownDrive.nack], [.stop, .release]], ∀ moved ∈ [974997, 974996],
        ∀ c ∈ [true, false],
        let s := withClosing (withMove (relaying st mark) acts moved) c
        s.ds.ctl = .busy (holder .relay .relay) ∧ s.up.phase = .relay (relayRec st mark) ∧
          s.ds.closing = c ∧ s.moving = decide (moved = 974997)) ∧
      (∀ d ∈ [3, 4], let s := withClosing (withMove (relaying .readDone .clear) [.nack] 1000000) true
        (atTime s (max s.now (s.ds.moved + d + 25000))).moving = decide (d = 3)) ∧
      (∀ c ∈ [true, false], ∀ moved ∈ [974997, 974996],
        let s := withClosing (withMove base [.stop, .release] moved) c
        s.ds.ctl = .free ∧ s.ds.closing = c ∧ s.os.part ≠ .doze ∧
          s.moving = decide (moved = 974997)) ∧
      (withPart base .doze (some .run)).os.part = .doze ∧
      (let a : Access := { asking := .inProgress, window := none }
       let s := withBus (withStart base (.descriptorRead a)) (.descriptorRead .startUp) .relay
       let t := withBus (withStart base (.probing 1 a)) (.probe 1) .relay
       (s.ds.ctl = .busy (holder (.descriptorRead .startUp) .relay) ∧
         s.os.start = some (.descriptorRead a)) ∧
         (t.ds.ctl = .busy (holder (.probe 1) .relay) ∧ t.os.start = some (.probing 1 a)) ∧
         ∀ j ∈ [Job.readDescriptor a, .readBack image a],
           let u := withBus (withJob base j) (.descriptorRead .port) .relay
           u.ds.ctl = .busy (holder (.descriptorRead .port) .relay) ∧
             u.port.cmd = some { code := 0x14, seq := 7, job := j }) ∧
      (∀ st ∈ [BlockStep.writing .inProgress none, .polling .inProgress 0],
        let j : Job := .writeBlock image 0 st
        let s := withBus (withJob base j) .descriptorPoll .relay
        s.ds.ctl = .busy (holder .descriptorPoll .relay) ∧
          s.port.cmd = some { code := 0x14, seq := 7, job := j }) := by decide +kernel

theorem witness_BusClearSuccessFreesTheBus :
    (∀ p ∈ [PartState.run, .passthrough, .flush],
      let s := withCtl (withPart base p none) .clearing
      s.inReset = false ∧ s.ds.ctl = .clearing ∧ s.os.part = p) ∧
      (∀ ret ∈ [PartState.passthrough, .run, .flush, .starting], ∀ pfail ∈ [true, false],
        let s := withCtl (withPart base .haltDown (some ret)) .clearing
        let t := { s with drain := { s.drain with pfailAsserted := pfail } }
        t.ds.ctl = .clearing ∧ t.os.part = .haltDown ∧ t.os.ret = some ret ∧
          t.drain.pfailAsserted = pfail) ∧
      (∀ p ∈ [PartState.starting, .haltDown], ∀ pass ∈ [true, false], ∀ m ∈ [none, some 3],
        let s := withCtl (withPart (withStart base .busClear) p (some .starting)) .clearing
        let t := { s with os := { s.os with passHigh := pass, msel := m } }
        t.ds.ctl = .clearing ∧ t.os.part = p ∧ t.os.ret = some .starting ∧
          t.os.start = some .busClear ∧ t.os.passHigh = pass ∧ t.os.msel = m) ∧
      (∀ w ∈ [991001, 991000],
        let a : Access := { asking := .afterClear, window := some w }
        (∀ st ∈ [StartStep.descriptorRead a, .probing 1 a],
          let s := withCtl (withStart base st) .clearing
          s.ds.ctl = .clearing ∧ s.os.part = .starting ∧ s.os.start = some st ∧
            s.os.start ≠ some .busClear) ∧
        ∀ j ∈ [Job.readDescriptor a, .readBack image a],
          (withCtl (withJob base j) .clearing).port.cmd =
            some { code := 0x14, seq := 7, job := j }) ∧
      (base.now + 1000 < 991001 + 10000 ∧ ¬ base.now + 1000 < 991000 + 10000) ∧
      (let a : Access := { asking := .waiting, window := none }
       ∀ st ∈ [StartStep.descriptorRead a, .probing 1 a, .leaving .run, .leaving .passStrap,
           .leaving (.passInvalid 4)], ∀ m ∈ [none, some 3],
         let s := withMsel
           (withCtl (withPart (withStart base st) .haltDown (some .starting)) .clearing) m
         s.os.part = .haltDown ∧ s.os.ret = some .starting ∧ s.os.start = some st ∧
           s.os.msel = m) ∧
      (9 : Nat) ≤ 9 :=
  ⟨by decide +kernel, by decide +kernel, by decide +kernel, by decide +kernel, by decide,
   by decide +kernel, by decide⟩

theorem witness_BusClearFailureHaltsTheBus :
    (withCtl base .clearing).inReset = false ∧ (withCtl base .clearing).ds.ctl = .clearing ∧
      (withCtl base .clearing).os.part ≠ .haltDown ∧ (9 : Nat) ≤ 9 ∧ 9 < 10 ∧
      (withCtl (withPart base .haltDown (some .run)) .clearing).os.part = .haltDown ∧
      (withCtl (withPhase base (.relayWait 0x48 true 1000000)) .clearing).up.phase =
        .relayWait 0x48 true 1000000 ∧
      (∀ st ∈ [FetchState.waitingGrant, .heldForCycle, .dueAgain 1000200],
        (withCtl (withRead base (waitingRead st)) .clearing).read = some (waitingRead st) ∧
          (withCtl (withRead base (waitingRead st)) .clearing).up.phase = .read) ∧
      (∀ o t0 f, base.read = some o → o.cond ≠ .waiting t0 f) ∧
      (∀ e ∈ (withJournal base [entryB, entryC]).journal,
        ((withJournal base [entryB, entryC]).info e.member).strict = true) ∧
      ((withCtl heldState .clearing).ds.ctl = .clearing ∧ heldState.journal ≠ []) ∧
      (∀ k ∈ [Asking.waiting, .afterClear, .dueAt 1000500, .noMore],
        let a : Access := { asking := k, window := some 991001 }
        ∀ st ∈ [StartStep.descriptorRead a, .probing 1 a],
          let s := withCtl (withStart base st) .clearing
          s.ds.ctl = .clearing ∧ s.os.part ≠ .haltDown ∧ s.os.start = some st) ∧
      (∀ k ∈ [Asking.waiting, .afterClear],
        let a : Access := { asking := k, window := some 991001 }
        ∀ j ∈ [Job.readDescriptor a, .readBack image a],
          (withCtl (withJob base j) .clearing).port.cmd =
            some { code := 0x14, seq := 7, job := j }) ∧
      (∀ st ∈ [BlockStep.writing .waiting none, .polling .waiting 1000000],
        let j : Job := .writeBlock image 0 st
        (withCtl (withJob base j) .clearing).port.cmd =
          some { code := 0x14, seq := 7, job := j }) ∧
      (withCtl base (.halted 1010000)).ds.ctl = .halted 1010000 :=
  ⟨by decide, by decide, by decide, by decide, by decide, by decide, by decide, by decide +kernel,
   nofun, by decide +kernel, by decide, by decide +kernel, by decide +kernel, by decide +kernel,
   by decide⟩

/-! ## Witnesses: drain, flush and DOZE -/

theorem witness_DrainRequestsMarkEveryEntry :
    (∀ p ∈ [PartState.run, .flush, .haltDown, .starting, .passthrough, .doze],
      ∀ high ∈ [true, false],
      let s := withPart base p (some .run)
      let t := { s with drain := { s.drain with drainHigh := high } }
      t.inReset = false ∧ t.os.part = p ∧ t.drain.drainHigh = high) ∧
      (∀ p ∈ [PartState.run, .flush, .haltDown, .starting, .passthrough],
        (withPart base p none).port.rx ≠ .stopped ∧ (withPart base p none).port.cmd = none ∧
          (withPart base p none).os.mode ≠ .monitor ∧ (withPart base p none).os.part ≠ .doze) := by
  decide +kernel

theorem witness_FlushFollowsPfail :
    let asserted := { base with drain := { base.drain with pfailAsserted := true } }
    let episode : Episode := { budget := .running, openedAt := 1000000 }
    (base.inReset = false ∧ base.drain.pfailAsserted = false ∧ base.os.part = .run ∧
      (withPart base .doze (some .run)).os.part = .doze) ∧
      (∀ ret ∈ [PartState.run, .flush, .starting, .passthrough],
        (withPart base .haltDown (some ret)).os.part = .haltDown ∧
          (withPart base .haltDown (some ret)).os.ret = some ret) ∧
      (∀ mark ∈ [AbortMark.clear, .prot],
        (writing 0 0 mark).up.phase = .write { openWrite 0 [0, 0] with mark := mark } ∧
          (withPart (writing 0 0 mark) .haltDown (some .run)).up.phase =
            .write { openWrite 0 [0, 0] with mark := mark }) ∧
      (asserted.drain.pfailAsserted = true ∧ (withPart asserted .flush none).os.part = .flush ∧
        asserted.os.part ≠ .flush) ∧
      ({ base with drain := { base.drain with episode := some episode } } : State).drain.episode =
        some episode := by decide +kernel

theorem witness_QuiesceEntersDoze :
    base.inReset = false ∧ base.os.quiesce = some 1000000 ∧
      (withPart base .doze (some .run)).os.part = .doze ∧
      (withPart base .doze (some .run)).port.rx ≠ .stopped := by decide

/-! ## Witnesses: the maintenance port -/

/-- A frame under assembly. -/
def framing (bytes : List Byte) : State :=
  { base with port := { base.port with rx := .frame bytes 1000000 } }

theorem witness_FramesAreReceivedByteByByte :
    (base.inReset = false ∧ base.os.part ≠ .doze ∧ base.port.rx = .hunt ∧ (0x5A : Byte) ≠ 0xA5) ∧
      (∀ bytes ∈ [[], [0x01], [0x01, 7], [0x01, 7, 1], [0x01, 7, 1, 9]],
        (framing bytes).port.rx = .frame bytes 1000000) ∧
      ((72 : Byte).toNat ≤ 72 ∧ 72 < (73 : Byte).toNat) ∧
      (([0x01, 7, 1] : List Byte).length < 3 + (([0x01, 7, 1] : List Byte).getD 2 0).toNat ∧
        ([0x01, 7, 1, 9] : List Byte).length =
          3 + (([0x01, 7, 1, 9] : List Byte).getD 2 0).toNat) ∧
      crc8 [0x01, 7, 1, 9] ≠ 0 ∧ (0x01 : Byte) = Cmd.status.code := by decide +kernel

theorem witness_FramesAreDecodedInOrder :
    (base.inReset = false ∧ base.port.rx ≠ .stopped ∧ base.os.part ≠ .doze ∧ base.port.cmd = none ∧
      (List.replicate 72 (0 : Byte)).length ≤ 72) ∧
      State.reset.port.rx = .stopped ∧
      ((withPart base .doze (some .run)).os.part = .doze ∧
        (withPart base .doze (some .run)).os.ret ≠ some .doze) ∧
      ((sending .command .answered).port.cmd.isSome = true ∧
        (sending .command .answered).port.busyPlaceFull = false ∧
        (sending .busy .answered).port.busyPlaceFull = true) ∧
      (0x05 : Byte) ∉ commandCodes ∧
      (({ base with os := { base.os with mode := .monitor } } : State).os.mode = .monitor ∧
        Cmd.drain.inMonitor = false) ∧
      ([0] : List Byte).length ≠ Cmd.status.requestLength := by decide

/-- The tests' part is ready for every command. -/
theorem base_ready (c : Cmd) : base.ReadyFor c := ⟨by decide, by decide, by decide, nofun, by decide⟩

theorem witness_ReportingCommandsAnswer :
    base.ReadyFor .status ∧
      ((withJournal base [entryA]).ReadyFor .readEntry ∧
        (withJournal base [entryA]).journal[(0 : Byte).toNat]? = some entryA) ∧
      (withJournal base [entryA]).journal.length ≤ (1 : Byte).toNat ∧
      base.ReadyFor .readFaults ∧ base.ReadyFor .clearFaults :=
  ⟨base_ready _, ⟨⟨by decide, by decide, by decide, nofun, by decide⟩, by decide⟩, by decide,
   base_ready _, base_ready _⟩

theorem witness_HeldMembersAreRetriedOrDiscarded :
    (∀ c : Cmd, heldState.ReadyFor c) ∧ 7 < (8 : Byte).toNat ∧ (7 : Byte).toNat = (7 : MemberIx).val ∧
      heldState.memberState 7 ≠ .held ∧ heldState.memberState 0 = .held ∧
      (heldState.info 0).strict = false ∧ heldState.Sized 0 ∧
      ((withState base 1 .held).memberState 1 = .held ∧
        ((withState base 1 .held).info 1).strict = true) :=
  ⟨fun _ => ⟨by decide, by decide, by decide, nofun, by decide⟩, by decide, by decide, by decide,
   by decide, by decide, by unfold State.Sized; decide, by decide⟩

theorem witness_DescriptorCommandsRunTheirSteps :
    base.ReadyFor .readDescriptor ∧ base.ReadyFor .writeDescriptor ∧
      (∀ p ∈ [PartState.haltDown, .starting, .run, .passthrough], (withPart base p none).os.part = p) ∧
      (image.length = 64 ∧ validate base.os.ads image = none ∧
        validate base.os.ads (List.replicate 64 0) = some 2 ∧
        (withJournal base [entryA]).journal ≠ []) ∧
      (∀ n ∈ [0, 6, 7], ∀ t ∈ [969199, 969200],
        let j : Job := .writeBlock image n (.polling .inProgress t)
        let w : Job := .writeBlock image n (.writing .inProgress (some t))
        let s := withBus (withJob base j) .descriptorPoll .relay
        let u := withBus (withJob base w) .descriptorWrite .relay
        (s.inReset = false ∧ s.job = some j ∧ s.ds.ctl = .busy (holder .descriptorPoll .relay)) ∧
          (u.job = some w ∧ u.ds.ctl = .busy (holder .descriptorWrite .relay))) ∧
      (base.now + 200 ≤ 969200 + 31000 ∧ 969199 + 31000 < base.now + 200) ∧
      (∀ p ∈ [PartState.run, .haltDown],
        let s := withPart base p none
        let a : Access := { asking := .dueAt 1000999, window := some 991000 }
        s.os.part = p ∧ s.os.start = none ∧
          max s.now 1000999 < 991000 + 10000 ∧
          ∀ j ∈ [Job.writeBlock image 0 (.polling (.dueAt 1000200) 1000000),
              .writeBlock image 0 (.writing (.dueAt 1000200) none), .readDescriptor a,
              .readBack image a],
            (withJob s j).port.cmd = some { code := 0x14, seq := 7, job := j }) ∧
      (∀ w ∈ [991001, 991000],
        let a : Access := { asking := .inProgress, window := some w }
        ∀ j ∈ [Job.readDescriptor a, .readBack image a],
          let s := withBus (withJob base j) (.descriptorRead .port)
            (.read 0x50 [0, 0] image.length)
          s.port.cmd = some { code := 0x14, seq := 7, job := j } ∧
            s.ds.ctl = .busy (holder (.descriptorRead .port) (.read 0x50 [0, 0] image.length))) ∧
      (base.now + 1000 < 991001 + 10000 ∧ ¬ base.now + 1000 < 991000 + 10000) ∧
      ReadNack.wordAddress ≠ .deviceW :=
  ⟨base_ready _, base_ready _, by decide, by decide +kernel, by decide +kernel, by decide,
   by decide +kernel, by decide +kernel, by decide, by decide⟩

theorem witness_PartChangesByCommand :
    (∀ c : Cmd, base.ReadyFor c) ∧ (base.os.part = .run ∧ base.upstreamOpen = false ∧ base.journal = []) ∧
      (addressed.upstreamOpen = true ∧ addressed.os.part = .run) ∧
      ((withJournal base [entryA]).journal ≠ [] ∧ (withPart base .passthrough none).os.part = .passthrough ∧
        (withPart base .flush none).os.part = .flush) ∧
      (∀ j ∈ [Job.reloadWaiting, .passWaiting], ∀ l ∈ [[], [entryA]],
        ∀ p ∈ [PartState.run, .passthrough, .flush],
        let s := withJob (withJournal (withPart base p none) l) j
        s.inReset = false ∧ s.upstreamOpen = false ∧ s.job = some j ∧ s.journal = l ∧
          s.os.part = p) ∧
      (1 < (2 : Byte).toNat ∧ (1 : Byte) ≠ 0) :=
  ⟨base_ready, by decide, by decide, by decide, by decide +kernel, by decide⟩

end Sys2Proof.Tests
end

section
/-! The hand-over of the landing buffer to the journal (R10, R13, R14): what an overlay holds, what the
STOP of a write that hands over leaves, and the two obligations about where the bytes go. -/

namespace Sys2Proof.Machine

/-! ## Images laid over one another (R4, R13) -/

@[simp] theorem PageImage.byteAt_zero (x : Option Byte) (img : PageImage) :
    PageImage.byteAt (x :: img) 0 = x := rfl

@[simp] theorem PageImage.byteAt_succ (x : Option Byte) (img : PageImage) (o : Nat) :
    PageImage.byteAt (x :: img) (o + 1) = img.byteAt o := by
  simp [PageImage.byteAt]

/-- The valid count is the number of offsets whose flag is set (R4). -/
theorem PageImage.validCount_eq_length_filter (img : PageImage) :
    img.validCount = ((List.range img.length).filter fun o => (img.byteAt o).isSome).length := by
  induction img with
  | nil => rfl
  | cons x img ih =>
    have later : (fun o => (PageImage.byteAt (x :: img) o).isSome) ∘ Nat.succ =
        fun o => (PageImage.byteAt img o).isSome := funext fun o => by simp
    rw [PageImage.validCount, List.countP_cons, List.length_cons, List.range_succ_eq_map,
      List.filter_cons, List.filter_map, later]
    cases x <;> simpa [PageImage.validCount] using ih

theorem PageImage.length_overlay {lower upper : PageImage} (h : lower.length = upper.length) :
    (lower.overlay upper).length = lower.length := by
  simp [PageImage.overlay, h]

/-- Where the upper flag is set the upper byte stands, and elsewhere the lower image (R13). -/
theorem PageImage.byteAt_overlay {lower upper : PageImage} (h : lower.length = upper.length)
    (o : Nat) : (lower.overlay upper).byteAt o = (upper.byteAt o).or (lower.byteAt o) := by
  by_cases inside : o < upper.length
  · have inside' : o < lower.length := h ▸ inside
    cases flag : upper[o] <;> simp [PageImage.byteAt, PageImage.overlay, inside, inside', flag]
  · have outside' : lower.length ≤ o := by omega
    simp [PageImage.byteAt, PageImage.overlay, Nat.le_of_not_lt inside, outside']

/-- The flags of an overlay are those set on either side. -/
theorem PageImage.validCount_overlay {lower upper : PageImage} (h : lower.length = upper.length) :
    (lower.overlay upper).validCount =
      ((List.range lower.length).filter fun o =>
        (upper.byteAt o).isSome || (lower.byteAt o).isSome).length := by
  simp [PageImage.validCount_eq_length_filter, PageImage.length_overlay h,
    PageImage.byteAt_overlay h]

/-! ## The hand-over at a STOP (R10, R103) -/

theorem State.handOver_of_target {s : State} {l : Landing} {i : Nat}
    (h : s.mergeTarget l.member l.page = some i) : s.handOver l = s.mergeInto i l := by
  simp [State.handOver, h]

theorem State.handOver_of_no_target {s : State} {l : Landing}
    (h : s.mergeTarget l.member l.page = none) : s.handOver l = s.allocate l := by
  simp [State.handOver, h]

/-- WRITE_STOP in a WRITE phase ends that write (R103). -/
theorem exec_writeStop_of_write {s : State} {w : OpenWrite} (running : s.inReset = false)
    (hphase : s.up.phase = .write w) : exec .writeStop s = .next (s.stopWrite w).settle := by
  change execWriteStop s = _
  exact State.take_some running (by simp [hphase])

/-- A write without an abort mark that has stored a byte hands its landing buffer over (R103). -/
theorem State.landWrite_eq_handOver {s : State} {w : OpenWrite} {l : Landing}
    (clear : w.mark = .clear) (hl : s.landing = some l) (stored : l.image.validCount ≠ 0) :
    s.landWrite w = s.handOver l := by
  simp [State.landWrite, clear, hl, stored]

/-- A STOP gives up the landing buffer and the reservation, and leaves all else as the landing left it
(R103). -/
theorem State.stopWrite_sameBut (s : State) (w : OpenWrite) :
    (s.landWrite w).sameBut (s.stopWrite w) [.up, .landing] := by
  intro p hp; cases p <;> simp_all [State.stopWrite, State.sameAt]

/-- The STOP of a write that hands over: the journal is the hand-over's, the write ends, and the rest of
the part stays. -/
theorem exec_writeStop_of_stored {s : State} {w : OpenWrite} {l : Landing}
    (running : s.inReset = false) (hphase : s.up.phase = .write w) (clear : w.mark = .clear)
    (hl : s.landing = some l) (stored : l.image.validCount ≠ 0) :
    ∃ t, exec .writeStop s = .next t ∧ t.journal = (s.handOver l).journal ∧ t.up.phase = .idle ∧
      t.landing = none ∧ t.reserved = false ∧ s.sameBut t [.journal, .up, .landing] := by
  have landed := s.landWrite_eq_handOver clear hl stored
  refine ⟨(s.stopWrite w).settle, exec_writeStop_of_write running hphase, ?_, rfl, rfl, rfl, ?_⟩
  · simp [State.stopWrite, landed]
  · have frame : (s.handOver l).sameBut (s.stopWrite w) [.up, .landing] :=
      landed ▸ s.stopWrite_sameBut w
    have ended : s.sameBut (s.stopWrite w) [.journal, .up, .landing] :=
      State.sameBut_trans (State.sameBut_mono (s.handOver_sameBut l) (by simp))
        (State.sameBut_mono frame (by simp))
    exact State.sameBut_trans ended (State.sameBut_mono (s.stopWrite w).sameBut_settle (by simp))

/-! ## Where the bytes go (R13, R14) -/

/-- Settles O24: the target becomes the overlay of its image by the landing's, and an overlay is said
offset by offset. -/
theorem handOverMergesIntoItsTarget : Obligations.HandOverMergesIntoItsTarget := by
  intro s w l i e running hphase clear hl stored target he sized
  obtain ⟨t, ht, hj, idle, landing, reserved, frame⟩ :=
    exec_writeStop_of_stored running hphase clear hl stored
  rw [State.handOver_of_target target, State.mergeInto_journal] at hj
  refine ⟨t, { e with
      image := e.image.overlay l.image
      deadline := s.now + ms (s.info l.member).dwellMs },
    ht, by simp [hj, he], ?set, ?clear, PageImage.validCount_overlay sized,
    rfl, rfl, rfl, rfl, rfl, rfl, ?others, ?free, idle, landing, reserved, frame⟩
  case set => intro o b hb; simp [PageImage.byteAt_overlay sized, hb]
  case clear => intro o hb; simp [PageImage.byteAt_overlay sized, hb]
  case others => intro j hji; simp [hj, Ne.symm hji]
  case free => simp [State.freeCount, hj]

/-- Settles O25: with no target the hand-over is an allocation, whose entry joins at the tail. -/
theorem handOverAllocatesAtTheTail : Obligations.HandOverAllocatesAtTheTail := by
  intro s w l running hphase clear hl stored noTarget room
  obtain ⟨t, ht, hj, idle, landing, reserved, frame⟩ :=
    exec_writeStop_of_stored running hphase clear hl stored
  rw [State.handOver_of_no_target noTarget, State.allocate_journal] at hj
  refine ⟨t, _, ht, hj, rfl, rfl, rfl, rfl, fun other => if_neg other, fun held => if_pos held,
    rfl, rfl, rfl, ?flight, ?free, idle, landing, reserved, frame⟩
  case flight => by_cases held : s.memberState l.member = .held <;> simp [Entry.flight?, held]
  case free =>
    simp only [State.freeCount, hj, List.length_append, List.length_singleton, Config.journalSlots]
    omega

end Sys2Proof.Machine
end

section
/-! What a command can do to the values that the invariants are about (R1, R11, R17, R22, R27, R100, R123,
R152, R157), said once: a list of effects, and every command makes some of them one after another. Each
invariant is then kept by showing that it is kept by each effect. -/

namespace Sys2Proof.Machine

open Relation

/-! ## The effects -/

/-- The start sequence runs only in STARTING and in a halt left from it (Table 9-1). -/
def Operating.StartRight (o : Operating) : Prop :=
  o.start.isSome = true → o.part = .starting ∨ (o.part = .haltDown ∧ o.ret = some .starting)

/-- Two states agree on everything that an invariant reads but the quiesce timer and its conditions. -/
def State.Alike (s t : State) : Prop :=
  t.pending = s.pending ∧ t.inReset = s.inReset ∧ t.os.part = s.os.part ∧ t.os.ret = s.os.ret ∧
    t.os.start.isSome = s.os.start.isSome ∧ t.members = s.members ∧ t.journal = s.journal ∧
    t.writing = s.writing ∧ t.landing = s.landing ∧ t.log = s.log ∧
    t.ds.starvation = s.ds.starvation

/-- The journal and an open write are both absent. -/
def State.Still (s : State) : Prop := s.journal = [] ∧ s.writing = none

/-- One effect of a command. `Q` is what is known of the state before the command. -/
inductive Effect (Q : Prop) : State → State → Prop
  | alike {s t : State} (h : s.Alike t) : Effect Q s t
  | recorded (s : State) (r : FaultRecord) (h : r.read = false) : Effect Q s { s with log := pushRecord r s.log }
  | recordsRead (s : State) : Effect Q s { s with log := markOldest 4 s.log }
  | recordsCleared (s : State) : Effect Q s { s with log := [] }
  | granted (s : State) (n : Nat) (h : n ≤ 4 ∨ n = s.ds.starvation) :
      Effect Q s { s with ds := { s.ds with starvation := n } }
  | slotChanged (s : State) (m : MemberIx) (g : Flight → Entry → Entry)
      (h : ∀ f e, e.isInFlight = true → (g f e).isInFlight = true ∧ (g f e).member = e.member) :
      Effect Q s (s.updateSlotEntry m g)
  | selected (s : State) (i : Nat) (e : Entry) (f : Flight) (h : s.journal[i]? = some e)
      (k : e.isPending = true) :
      Effect Q s { s with journal := s.journal.set i { e with state := .inFlight f } }
  | memberMoved (s : State) (m : MemberIx) (st : MemberState) (h : st ≠ .held)
      (k : s.memberState m ≠ .held ∨ s.os.start.isSome = true ∨
        ∃ e : Entry, e ∈ s.journal ∧ e.member = m ∧ e.isHeld = false) : Effect Q s (s.setMember m st)
  | pointed (s : State) (m : MemberIx) (p : MemberAddr) : Effect Q s (s.setPointer m p)
  | exhausted (s : State) (m : MemberIx) (h : ∃ e : Entry, e ∈ s.journal ∧ e.member = m) :
      Effect Q s
        (({ s with
            journal := s.journal.map fun e =>
              if e.member = m then { e with state := .held } else e } : State).setMember m .held)
  | removed (s : State) (p : Entry → Bool) : Effect Q s { s with journal := s.journal.filter p }
  | marked (s : State) : Effect Q s s.markAll
  | landed (s : State) (w : OpenWrite) (l : Landing) (h : s.up.phase = .write w)
      (k : s.landing = some l) : Effect Q s (s.handOver l).dropLanding.toIdle
  | landingChanged (s : State) (l : Option Landing)
      (h : ∀ b, l = some b →
        s.writing = some b.member ∨ ∃ old, s.landing = some old ∧ old.member = b.member) : Effect Q s { s with landing := l }
  | phaseLeft (s : State) (u : Upstream) (h : s.landing = none) (k : ∀ w, u.phase ≠ .write w) :
      Effect Q s { s with up := u }
  | writeOpened (s : State) (u : Upstream) (w : OpenWrite) (h : s.writing = none)
      (k : u.phase = .write w) (row : w.member.val < s.members.length) (run : s.os.part = .run)
      (room : s.journal.length < 32) : Effect Q s { s with up := u }
  | operated (s : State) (o : Operating)
      (h : Q → s.os.journaling = true → o.journaling = true ∨ s.Still)
      (k : Q → s.os.StartRight → o.StartRight) : Effect Q s { s with os := o }
  | tableChanged (s : State) (l : List Member) (h : s.os.start.isSome = true ∨ s.Still) :
      Effect Q s { s with members := l }
  | discarded (s : State) (m : MemberIx) (h : s.memberState m = .held) : Effect Q s (s.discardMember m)
  | revived (s : State) (m : MemberIx) (h : s.memberState m = .held) : Effect Q s (s.retryMember m)
  | halted (s : State) : Effect Q s s.returnToPending
  | restarted (s t : State) (hp : t.pending = s.pending) (hr : t.inReset = false)
      (hl : t.log = s.log) (hs : t.ds.starvation = 0) (hj : t.Still) (hb : t.landing = none)
      (ho : t.os.StartRight) : Effect Q s t

/-- Effects one after another. -/
def Becomes (Q : Prop) (s t : State) : Prop := ReflTransGen (Effect Q) s t

/-- What every effect keeps, effects one after another keep. -/
theorem Becomes.keeps {Q : Prop} {P : State → Prop} (step : ∀ s t, Effect Q s t → P s → P t)
    {s t : State} (h : Becomes Q s t) (hs : P s) : P t := by
  induction h with
  | refl => exact hs
  | tail _ e ih => exact step _ _ e ih

namespace Becomes

variable {Q : Prop} {a s t : State}

theorem refl (s : State) : Becomes Q s s := ReflTransGen.refl

theorem then_ (h : Becomes Q a s) (k : Effect Q s t) : Becomes Q a t := ReflTransGen.tail h k

theorem alike (h : Becomes Q a s) (k : s.Alike t) : Becomes Q a t := h.then_ (.alike k)

/-- A change of the pieces that no invariant reads. -/
theorem sameBut (h : Becomes Q a s) (k : s.sameBut t [.now, .drain, .read, .port]) :
    Becomes Q a t := by
  have os : { t.os with quiesce := none } = { s.os with quiesce := none } := k .os (by simp)
  have up : t.up = s.up := k .up (by simp)
  have ds : t.ds = s.ds := k .ds (by simp)
  have part := congrArg Operating.part os
  have ret := congrArg Operating.ret os
  have start := congrArg Operating.start os
  dsimp only at part ret start
  exact h.alike ⟨k .pending (by simp), k .inReset (by simp), part, ret, by rw [start],
    k .members (by simp), k .journal (by simp), by rw [State.writing, up, State.writing],
    k .landing (by simp), k .log (by simp), by rw [ds]⟩

/-! ## The shared operations as effects -/

theorem advanceTo (h : Becomes Q a s) (x : Micros) : Becomes Q a (s.advanceTo x) :=
  h.alike ⟨rfl, rfl, rfl, rfl, rfl, rfl, rfl, rfl, rfl, rfl, rfl⟩

theorem say (h : Becomes Q a s) (x : List UpDrive) : Becomes Q a (s.say x) :=
  h.alike ⟨rfl, rfl, rfl, rfl, rfl, rfl, rfl, rfl, rfl, rfl, rfl⟩

theorem drive (h : Becomes Q a s) (x : List DownDrive) : Becomes Q a (s.drive x) :=
  h.alike ⟨rfl, rfl, rfl, rfl, rfl, rfl, rfl, rfl, rfl, rfl, rfl⟩

theorem follow (h : Becomes Q a s) (x : List DownDrive) : Becomes Q a (s.follow x) :=
  h.alike ⟨rfl, rfl, rfl, rfl, rfl, rfl, rfl, rfl, rfl, rfl, rfl⟩

theorem leaveOpen (h : Becomes Q a s) : Becomes Q a s.leaveOpen :=
  h.alike ⟨rfl, rfl, rfl, rfl, rfl, rfl, rfl, rfl, rfl, rfl, rfl⟩

theorem move (h : Becomes Q a s) : Becomes Q a s.move :=
  h.alike ⟨rfl, rfl, rfl, rfl, rfl, rfl, rfl, rfl, rfl, rfl, rfl⟩

theorem startIdle (h : Becomes Q a s) : Becomes Q a s.startIdle :=
  h.alike ⟨rfl, rfl, rfl, rfl, rfl, rfl, rfl, rfl, rfl, rfl, rfl⟩

theorem stopIdle (h : Becomes Q a s) : Becomes Q a s.stopIdle :=
  h.alike ⟨rfl, rfl, rfl, rfl, rfl, rfl, rfl, rfl, rfl, rfl, rfl⟩

theorem setCtl (h : Becomes Q a s) (c : Controller) : Becomes Q a (s.setCtl c) :=
  h.alike ⟨rfl, rfl, rfl, rfl, rfl, rfl, rfl, rfl, rfl, rfl, rfl⟩

theorem freeBus (h : Becomes Q a s) : Becomes Q a s.freeBus :=
  h.alike ⟨rfl, rfl, rfl, rfl, rfl, rfl, rfl, rfl, rfl, rfl, rfl⟩

theorem releaseRelay (h : Becomes Q a s) : Becomes Q a s.releaseRelay :=
  h.alike ⟨rfl, rfl, rfl, rfl, rfl, rfl, rfl, rfl, rfl, rfl, rfl⟩

theorem openFor (h : Becomes Q a s) (r : Request) : Becomes Q a (s.openFor r) :=
  h.alike ⟨rfl, rfl, rfl, rfl, rfl, rfl, rfl, rfl, rfl, rfl, rfl⟩

theorem endTransaction (h : Becomes Q a s) : Becomes Q a s.endTransaction :=
  h.freeBus.drive _

theorem raise (h : Becomes Q a s) (r : Request) : Becomes Q a (s.raise r) :=
  h.alike (by simp [State.Alike, State.writing])

theorem withdraw (h : Becomes Q a s) (r : Request) : Becomes Q a (s.withdraw r) :=
  h.alike ⟨rfl, rfl, rfl, rfl, rfl, rfl, rfl, rfl, rfl, rfl, rfl⟩

theorem withdrawSlot (h : Becomes Q a s) (m : MemberIx) : Becomes Q a (s.withdrawSlot m) :=
  (((h.withdraw _).withdraw _).withdraw _).withdraw _

theorem raiseStep (h : Becomes Q a s) (m : MemberIx) : Becomes Q a (s.raiseStep m) := by
  unfold State.raiseStep
  split
  · exact h
  · split
    · exact h
    · exact h.raise _

theorem setFetch (h : Becomes Q a s) (x : FetchState) : Becomes Q a (s.setFetch x) :=
  h.alike ⟨rfl, rfl, rfl, rfl, rfl, rfl, rfl, rfl, rfl, rfl, rfl⟩

theorem setRead (h : Becomes Q a s) (x : Option OpenRead) : Becomes Q a { s with read := x } :=
  h.alike ⟨rfl, rfl, rfl, rfl, rfl, rfl, rfl, rfl, rfl, rfl, rfl⟩

theorem setDir (h : Becomes Q a s) (x : Option Dir) :
    Becomes Q a { s with up := { s.up with dir := x } } :=
  h.alike ⟨rfl, rfl, rfl, rfl, rfl, rfl, rfl, rfl, rfl, rfl, rfl⟩

theorem setPort (h : Becomes Q a s) (x : Port) : Becomes Q a { s with port := x } :=
  h.alike ⟨rfl, rfl, rfl, rfl, rfl, rfl, rfl, rfl, rfl, rfl, rfl⟩

theorem setDrain (h : Becomes Q a s) (x : DrainUnit) : Becomes Q a { s with drain := x } :=
  h.alike ⟨rfl, rfl, rfl, rfl, rfl, rfl, rfl, rfl, rfl, rfl, rfl⟩

theorem setJob (h : Becomes Q a s) (j : Job) : Becomes Q a (s.setJob j) := h.setPort _

theorem startJob (h : Becomes Q a s) (c q : Byte) (j : Job) : Becomes Q a (s.startJob c q j) :=
  h.setPort _

theorem setRx (h : Becomes Q a s) (x : Receiver) : Becomes Q a (s.setRx x) := h.setPort _

theorem finish (h : Becomes Q a s) (st : Status) (pl : List Byte) : Becomes Q a (s.finish st pl) :=
  h.sameBut (State.sameBut_mono (s.finish_sameBut st pl) (by simp))

theorem refuse (h : Becomes Q a s) (r : Byte) : Becomes Q a (s.refuse r) := h.finish _ _

theorem answer (h : Becomes Q a s) (c q : Byte) (st : Status) (pl : List Byte) :
    Becomes Q a (s.answer c q st pl) :=
  (h.setPort _).finish _ _

theorem decline (h : Becomes Q a s) (c q r : Byte) : Becomes Q a (s.decline c q r) :=
  h.answer _ _ _ _

theorem answerBusy (h : Becomes Q a s) (c q : Byte) : Becomes Q a (s.answerBusy c q) := by
  unfold State.answerBusy
  split
  · exact h
  · exact h.setPort _

theorem setStartAccess (h : Becomes Q a s) (x : Access) : Becomes Q a (s.setStartAccess x) :=
  h.alike ⟨rfl, rfl, rfl, rfl, by simp [State.setStartAccess], rfl, rfl, rfl, rfl, rfl, rfl⟩

theorem setPortAccess (h : Becomes Q a s) (x : Access) : Becomes Q a (s.setPortAccess x) := by
  unfold State.setPortAccess
  split
  · exact h.setJob _
  · exact h.setJob _
  · exact h

theorem askStart (h : Becomes Q a s) (w : Option Micros) : Becomes Q a (s.askStart w) := by
  unfold State.askStart
  split
  · exact (h.setStartAccess _).raise _
  · exact h

theorem record (h : Becomes Q a s) (k : FaultKind) (m : Option MemberIx) (p : Option Nat) (d : Nat) :
    Becomes Q a (s.record k m p d) :=
  h.then_ (.recorded s _ rfl)

theorem dropLanding (h : Becomes Q a s) : Becomes Q a s.dropLanding :=
  h.then_ (.landingChanged s none nofun)

theorem abortWrite (h : Becomes Q a s) : Becomes Q a s.abortWrite := by
  refine h.alike ?_
  cases hp : s.up.phase with
  | write w => by_cases hm : w.mark = .clear <;> simp [State.Alike, State.abortWrite, State.writing, hp, hm]
  | _ => simp [State.Alike, State.abortWrite, State.writing, hp]

theorem endAborted (h : Becomes Q a s) (w : OpenWrite) : Becomes Q a (s.endAborted w) := by
  unfold State.endAborted
  split
  · split
    · exact h
    · exact h.record _ _ _ _
  · exact h

theorem setPointer (h : Becomes Q a s) (m : MemberIx) (p : MemberAddr) :
    Becomes Q a (s.setPointer m p) :=
  h.then_ (.pointed s m p)

theorem markAll (h : Becomes Q a s) : Becomes Q a s.markAll := h.then_ (.marked s)

/-! ## The journal and its slots -/

theorem updateFlight (h : Becomes Q a s) (m : MemberIx) (g : Flight → Flight) :
    Becomes Q a (s.updateFlight m g) :=
  h.then_ (.slotChanged s m _ fun _ _ _ => ⟨rfl, rfl⟩)

theorem enterCycle (h : Becomes Q a s) {m : MemberIx}
    (k : ∃ e : Entry, e ∈ s.journal ∧ e.member = m ∧ e.isHeld = false) :
    Becomes Q a (s.enterCycle m) := by
  have h' := h.then_ (.memberMoved s m .cycle nofun (.inr (.inr k)))
  unfold State.enterCycle; dsimp only
  split
  · split
    · exact (h'.withdraw _).setFetch _
    · exact h'.setFetch _
    · exact h'
  · exact h'

theorem leaveCycle (h : Becomes Q a s) (m : MemberIx) : Becomes Q a (s.leaveCycle m) := by
  unfold State.leaveCycle; dsimp only
  split
  case isFalse => exact h
  case isTrue cycle =>
    have h' := h.then_ (.memberMoved s m .online nofun (.inl (by rw [cycle]; nofun)))
    split
    · split
      · exact (h'.setFetch _).raise _
      · exact h'
    · exact h'

theorem exhaust (h : Becomes Q a s) {m : MemberIx} (k : ∃ e : Entry, e ∈ s.journal ∧ e.member = m) (p : Nat) :
    Becomes Q a (s.exhaust m p) :=
  (h.then_ (.exhausted s m k)).record _ _ _ _

theorem retry (h : Becomes Q a s) (m : MemberIx) : Becomes Q a (s.retry m) :=
  (h.then_ (.slotChanged s m (fun _ e => { e with state := .inFlight (planFlight (s.info m) e.image) })
    fun _ _ _ => ⟨rfl, rfl⟩)).raiseStep m

theorem failAttempt (h : Becomes Q a s) (m : MemberIx) (c : Cause) :
    Becomes Q a (s.failAttempt m c) := by
  unfold State.failAttempt; dsimp only
  split
  · exact h
  · rename_i e he
    obtain ⟨mem, rfl, flying⟩ := State.slotEntry_spec he
    have h' := ((((h.then_ (.slotChanged s e.member (fun _ e => { e with attempts := e.attempts + 1 })
      fun f e k => ⟨k, rfl⟩)).record .attemptFailed (some e.member) (some e.page) c.code).leaveCycle
        e.member).withdrawSlot e.member)
    split
    · exact h'.retry _
    · refine h'.exhaust ?_ _
      obtain ⟨f, hf⟩ := Option.isSome_iff_exists.mp flying
      exact ⟨{ e with attempts := e.attempts + 1 }, by
        simpa [State.updateSlotEntry] using List.mem_map.mpr ⟨e, mem, by simp [hf]⟩, rfl⟩

theorem busyRefused (h : Becomes Q a s) (m : MemberIx) (x : Micros) (c : Cause) :
    Becomes Q a (s.busyRefused m x c) := by
  unfold State.busyRefused; dsimp only
  split
  · exact h
  · split
    · exact h.updateFlight _ _
    · exact h.failAttempt _ _

theorem retire (h : Becomes Q a s) (m : MemberIx) : Becomes Q a (s.retire m) := by
  unfold State.retire
  split
  · exact h
  · exact (h.then_ (.removed s _)).setRead _

theorem nextStep (h : Becomes Q a s) (m : MemberIx) (st : Stage) (n : Nat) :
    Becomes Q a (s.nextStep m st n) :=
  (h.updateFlight _ _).raiseStep m

/-! ## The open read -/

theorem serveByte (h : Becomes Q a s) (b : Byte) : Becomes Q a (s.serveByte b) :=
  (h.alike ⟨rfl, rfl, rfl, rfl, rfl, rfl, rfl, rfl, rfl, rfl, rfl⟩ : Becomes Q a (s.alsoSay _)).startIdle

theorem underrun (h : Becomes Q a s) (d : Nat) : Becomes Q a (s.underrun d) := by
  unfold State.underrun; dsimp only
  split
  · exact h
  · split
    · exact (h.setRead _).serveByte _
    · exact ((h.record _ _ _ _).setRead _).serveByte _

theorem serveDue (h : Becomes Q a s) : Becomes Q a s.serveDue := by
  unfold State.serveDue; dsimp only
  split
  · exact h
  · split
    · exact h.serveByte _
    · split
      · exact h.serveByte _
      · split
        · exact h.serveByte _
        · split
          · exact h.underrun _
          · split
            · exact (h.setRead _).stopIdle
            · exact (h.setRead _).stopIdle.raise _

theorem raiseHeldIssue (h : Becomes Q a s) (m : MemberIx) : Becomes Q a (s.raiseHeldIssue m) := by
  unfold State.raiseHeldIssue
  split
  · split
    · exact h.raiseStep m
    · exact h
  · exact h

theorem closeRead (h : Becomes Q a s) : Becomes Q a s.closeRead := by
  unfold State.closeRead
  split
  · exact h
  · exact ((h.withdraw _).setRead _).raiseHeldIssue _

/-! ## The upstream phase -/

/-- The phase becomes another where no write is open before or after. -/
theorem setUp (h : Becomes Q a s) {u : Upstream} (k : s.writing = none)
    (n : ∀ w, u.phase ≠ .write w) : Becomes Q a { s with up := u } := by
  refine h.alike ⟨rfl, rfl, rfl, rfl, rfl, rfl, rfl, ?_, rfl, rfl, rfl⟩
  rw [k, State.writing]
  cases hp : u.phase with
  | write w => exact absurd hp (n w)
  | _ => rfl

theorem refuseAddress (h : Becomes Q a s) (k : s.writing = none) : Becomes Q a s.refuseAddress :=
  h.setUp k nofun

theorem toIdle (h : Becomes Q a s) (k : s.writing = none) : Becomes Q a s.toIdle :=
  h.setUp k nofun

theorem toAddress (h : Becomes Q a s) (k : s.writing = none) : Becomes Q a s.toAddress :=
  h.setUp k nofun

theorem toRead (h : Becomes Q a s) (k : s.writing = none) : Becomes Q a (s.setPhase .read) :=
  h.setUp k nofun

theorem toRelayWait (h : Becomes Q a s) (k : s.writing = none) (dev : DevAddr) (r : Bool)
    (x : Micros) : Becomes Q a (s.setPhase (.relayWait dev r x)) :=
  h.setUp k nofun

theorem toRelay (h : Becomes Q a s) (k : s.writing = none) (r : OpenRelay) :
    Becomes Q a (s.setPhase (.relay r)) :=
  h.setUp k nofun

theorem endDownstream (h : Becomes Q a s) (r : OpenRelay) : Becomes Q a (s.endDownstream r) := by
  unfold State.endDownstream
  split
  · exact h
  · exact h.releaseRelay
  · exact (h.follow _).releaseRelay

theorem refuseRelay (h : Becomes Q a s) (k : s.writing = none) : Becomes Q a s.refuseRelay :=
  (h.withdraw _).refuseAddress k

/-! ## The part state -/

theorem wake (h : Becomes Q a s) : Becomes Q a s.wake := by
  unfold State.wake
  split
  case isFalse => exact h
  case isTrue doze =>
    refine h.then_ (.operated s _ (fun _ j => ?_) fun _ k st => ?_)
    · simp [Operating.journaling, doze] at j
    · have := k st; simp [doze] at this

theorem setOs (h : Becomes Q a s) {o : Operating} (j : s.os.journaling = true → o.journaling = true)
    (k : s.os.StartRight → o.StartRight) : Becomes Q a { s with os := o } :=
  h.then_ (.operated s o (fun _ x => .inl (j x)) fun _ => k)

/-- FLUSH marks every entry and the open write, whatever state it is entered from. -/
theorem enterFlush (h : Becomes Q a (s.setPart .flush)) : Becomes Q a s.enterFlush :=
  (h.markAll.setDrain _).abortWrite

end Becomes

end Sys2Proof.Machine
end

section
/-! The effects of the operations of each family: the start sequence, the upstream engine, relays, the commit
engine, the downstream controller, drain and flush. -/

namespace Sys2Proof.Machine

theorem State.answerReload_os (s : State) (n : Nat) : (s.answerReload n).os = s.os := by
  unfold State.answerReload
  split
  · simp
  · rfl

/-- The member found at an address has a row, and the row has that address (R81). -/
theorem State.memberAt_row {s : State} {dev : DevAddr} {m : MemberIx} (h : s.memberAt dev = some m) :
    ∃ row, s.members[m.val]? = some row ∧ row.info.bus = dev := by
  have k := List.find?_some h
  cases hm : s.members[m.val]? with
  | none => simp [hm] at k
  | some row => exact ⟨row, rfl, by simpa [hm] using k⟩

theorem State.journaledAt_row {s : State} {dev : DevAddr} {m : MemberIx}
    (h : s.journaledAt dev = some m) : m.val < s.members.length := by
  obtain ⟨row, hrow, -⟩ := State.memberAt_row (Option.eq_some_of_filter_eq_some h)
  exact (List.getElem?_eq_some_iff.mp hrow).1

namespace Becomes

variable {Q : Prop} {a s t : State}

/-! ## Leaving STARTING and the start sequence -/

theorem answerReload (h : Becomes Q a s) (n : Nat) : Becomes Q a (s.answerReload n) := by
  unfold State.answerReload
  split
  · exact h.finish _ _
  · exact h

theorem departTo (h : Becomes Q a s) (k : s.os.part = .starting) (p : PartState)
    (c : Option PassCause) : Becomes Q a (s.departTo p c) :=
  h.setOs (fun j => by simp [Operating.journaling, k] at j) fun _ => nofun

theorem depart (h : Becomes Q a s) (k : s.os.part = .starting) (d : Prepared) :
    Becomes Q a (s.depart d) := by
  cases d with
  | run =>
    have h' := (h.departTo k .run none).answerReload 0
    simp only [State.depart]
    split
    · exact Becomes.enterFlush (h'.setOs (fun _ => rfl) fun _ st => by simp [State.answerReload_os] at st)
    · exact h'
  | passStrap => exact h.departTo k _ _
  | passInvalid n => exact (h.departTo k _ _).answerReload n

theorem leaveIfReady (h : Becomes Q a s) : Becomes Q a s.leaveIfReady := by
  unfold State.leaveIfReady
  split
  · exact h.depart ‹_› _
  · exact h

theorem prepare (h : Becomes Q a s) (k : s.os.start.isSome = true) (d : Prepared) :
    Becomes Q a (s.prepare d) :=
  Becomes.leaveIfReady (h.setOs id fun right _ => right k)

theorem probeNext (h : Becomes Q a s) (k : s.os.start.isSome = true) (n : Nat) :
    Becomes Q a (s.probeNext n) := by
  unfold State.probeNext
  split
  · refine Becomes.raise ?_ _
    exact h.setOs id fun right _ => right k
  · exact h.prepare k _

theorem rejectDescriptor (h : Becomes Q a s) (k : s.os.start.isSome = true) (n : Nat) :
    Becomes Q a (s.rejectDescriptor n) :=
  (h.record _ _ _ _).prepare k _

theorem acceptDescriptor (h : Becomes Q a s) (k : s.os.start.isSome = true) (image : List Byte) :
    Becomes Q a (s.acceptDescriptor image) :=
  Becomes.probeNext
    ((h.then_ (.tableChanged s
      ((usedRecords image).map fun r => { info := r, state := .unset, pointer := 0 }) (.inl k))).setOs
        (o := { s.os with globals := some (readGlobals image), cause := none }) id id) k 0

theorem takeDescriptor (h : Becomes Q a s) (k : s.os.start.isSome = true) (image : List Byte) :
    Becomes Q a (s.takeDescriptor image) := by
  unfold State.takeDescriptor
  split
  · exact h.rejectDescriptor k _
  · exact h.acceptDescriptor k _

theorem requestDescriptor (h : Becomes Q a s)
    (k : s.os.start.isSome = true ∨ s.os.part = .starting) : Becomes Q a s.requestDescriptor :=
  Becomes.raise (h.setOs
    (o := { s.os with start := some (.descriptorRead { asking := .waiting, window := none }) })
    id fun right _ => k.elim right .inl) _

theorem continueStart (h : Becomes Q a s) (k : s.os.start.isSome = true) :
    Becomes Q a s.continueStart := by
  unfold State.continueStart
  split
  · exact h.prepare k _
  · exact h.requestDescriptor (.inl k)

theorem startReadEnd (h : Becomes Q a s) (report : ReadReport) :
    Becomes Q a (s.startReadEnd report) := by
  unfold State.startReadEnd
  split
  · rename_i x hx
    have k : s.os.start.isSome = true := by simp [hx]
    split
    · split
      · exact h.takeDescriptor k _
      · exact h.setStartAccess _
      · exact h.rejectDescriptor k _
    · exact h
  · exact h

theorem portReadDone (h : Becomes Q a s) (bytes : List Byte) : Becomes Q a (s.portReadDone bytes) := by
  unfold State.portReadDone
  split
  · exact h.finish _ _
  · split
    · exact h.finish _ _
    · exact h.refuse _
  · exact h

theorem portReadEnd (h : Becomes Q a s) (report : ReadReport) :
    Becomes Q a (s.portReadEnd report) := by
  unfold State.portReadEnd
  split
  · split
    · split
      · exact h.portReadDone _
      · exact h.setPortAccess _
      · exact h.refuse _
    · exact h
  · exact h

theorem probeEnded (h : Becomes Q a s) (m : MemberIx) (ack : Bool) :
    Becomes Q a (s.probeEnded m ack) := by
  unfold State.probeEnded
  split
  · rename_i m' x hx
    have k : s.os.start.isSome = true := by simp [hx]
    split
    · split
      · exact Becomes.probeNext (h.then_ (.memberMoved s m .online nofun (.inr (.inl k)))) k _
      · exact h.setStartAccess _
    · exact h
  · exact h

/-! ## The upstream engine -/

theorem admission (h : Becomes Q a s) {m : MemberIx} (k : s.writing = none)
    (run : s.os.part = .run) (row : m.val < s.members.length) : Becomes Q a (s.admission m) := by
  unfold State.admission
  split
  · exact h.refuseAddress k
  · rename_i open_
    have room : s.journal.length < 32 := by
      simp only [State.freeCount, Config.journalSlots] at open_; omega
    exact Becomes.startIdle (Becomes.say (h.then_ (.writeOpened s _
      { member := m, word := [], dataCount := 0, mark := .clear } k rfl row run room)) _)

theorem requestRelay (h : Becomes Q a s) (k : s.writing = none) (dev : DevAddr) (r : Bool) :
    Becomes Q a (s.requestRelay dev r) :=
  ((h.toRelayWait k _ _ _).say _).stopIdle.raise _

theorem openRead (h : Becomes Q a s) (k : s.writing = none) (m : MemberIx) :
    Becomes Q a (s.openRead m) :=
  ((((h.toRead k).say _).setRead _).startIdle.withdraw _).serveDue

theorem busyPolicy (h : Becomes Q a s) (k : s.writing = none) (m : MemberIx) :
    Becomes Q a (s.busyPolicy m) := by
  unfold State.busyPolicy
  split
  · exact h.refuseAddress k
  · exact h.openRead k m

theorem classify (h : Becomes Q a s) (k : s.writing = none) (dev : DevAddr) (dir : Dir) :
    Becomes Q a (s.classify dev dir) := by
  have h' := h.setDir (some dir)
  unfold State.classify; dsimp only
  split
  · rename_i run
    split
    · rename_i m found
      cases dir with
      | write => exact h'.admission k run (State.journaledAt_row found)
      | read => exact h'.busyPolicy k _
    · exact h'.requestRelay k _ _
  · exact h'.requestRelay k _ _
  · exact h'.refuseAddress k

/-- A write goes on: its phase changes, its member stays. -/
theorem setWrite (h : Becomes Q a s) {w w' : OpenWrite} (k : s.up.phase = .write w)
    (m : w'.member = w.member) : Becomes Q a (s.setPhase (.write w')) :=
  h.alike ⟨rfl, rfl, rfl, rfl, rfl, rfl, rfl, by simp [State.writing, k, m], rfl, rfl, rfl⟩

theorem bindLanding (h : Becomes Q a s) {m : MemberIx} (k : s.writing = some m) (word : List Byte) :
    Becomes Q a (s.bindLanding m word) :=
  (h.then_ (.pointed s m _)).then_ (.landingChanged _ _ fun b hb => by cases hb; exact .inl k)

theorem refuseProtected (h : Becomes Q a s) {w : OpenWrite} (k : s.up.phase = .write w) :
    Becomes Q a (s.refuseProtected w) :=
  ((((h.record _ _ _ _).dropLanding).setWrite (w' := { w with mark := .prot }) k rfl).say _).startIdle

theorem storeByte (h : Becomes Q a s) {w : OpenWrite} (k : s.up.phase = .write w) (b : Byte) :
    Becomes Q a (s.storeByte w b) := by
  have stored : Becomes Q a { s.setPointer w.member ((s.info w.member).nextInPage (s.pointer w.member)) with
      landing := s.landing.map fun l =>
        { l with image := l.image.set ((s.info w.member).offsetOf (s.pointer w.member)) (some b) } } :=
    (h.then_ (.pointed s w.member _)).then_ (.landingChanged _ _ fun l hl => by
      obtain ⟨old, hold, rfl⟩ := Option.map_eq_some_iff.mp hl
      exact .inr ⟨old, hold, rfl⟩)
  exact ((stored.setWrite (w' := { w with dataCount := w.dataCount + 1 }) k rfl).say _).startIdle

/-- A write whose landing buffer is gone ends. -/
theorem leaveWrite (h : Becomes Q a s) (k : s.landing = none) {u : Upstream}
    (n : ∀ w, u.phase ≠ .write w) : Becomes Q a { s with up := u } :=
  h.then_ (.phaseLeft s u k n)

theorem stopWrite (h : Becomes Q a s) {w : OpenWrite} (k : s.up.phase = .write w) :
    Becomes Q a (s.stopWrite w) := by
  unfold State.stopWrite State.landWrite
  split
  · rename_i l _ hl
    split
    · exact h.dropLanding.leaveWrite rfl nofun
    · exact h.then_ (.landed s w l k hl)
  · exact (h.endAborted w).dropLanding.leaveWrite rfl nofun

theorem restartWrite (h : Becomes Q a s) (w : OpenWrite) : Becomes Q a (s.restartWrite w) :=
  (h.endAborted w).dropLanding.leaveWrite rfl nofun

theorem endRead (h : Becomes Q a s) (k : s.up.phase = .read) (how : Ending) :
    Becomes Q a (s.endRead how) := by
  cases how with
  | stop => exact h.closeRead.toIdle (by simp [State.writing, k])
  | repeatedStart => exact h.closeRead.toAddress (by simp [State.writing, k])

/-! ## Relays -/

theorem startRelay (h : Becomes Q a s) : Becomes Q a s.startRelay := by
  unfold State.startRelay
  split
  · rename_i hp
    exact (h.toRelay (by simp [State.writing, hp]) _).stopIdle.drive _
  · exact h

theorem answerRelay (h : Becomes Q a s) (k : s.writing = none) (r : OpenRelay) (ack : Bool) :
    Becomes Q a (s.answerRelay r ack) := by
  unfold State.answerRelay; dsimp only
  have h := h.say [if ack then .ack else .nack]
  have k : (s.say [if ack then .ack else .nack]).writing = none := k
  generalize s.say [if ack then .ack else .nack] = u at h k ⊢
  split
  · exact (h.toRelay k _).stopIdle.move
  · exact (h.toRelay k _).startIdle

theorem hostAnswered (h : Becomes Q a s) (k : s.writing = none) (r : OpenRelay) (ack : Bool) :
    Becomes Q a (s.hostAnswered r ack) := by
  unfold State.hostAnswered; dsimp only
  split
  · split
    · exact (((h.say []).drive [_]).toRelay k _).stopIdle
    · exact (((h.say []).drive [_]).toRelay k _).startIdle.leaveOpen
  · split
    · exact (h.say _).startIdle
    · exact ((h.toRelay k _).say _).startIdle

theorem relayAddress (h : Becomes Q a s) (k : s.writing = none) (r : OpenRelay) (dev : DevAddr)
    (dir : Dir) : Becomes Q a (s.relayAddress r dev dir) := by
  have h' := h.setDir (some dir)
  unfold State.relayAddress; dsimp only
  split
  · exact ((h'.toRelay k _).say _).startIdle
  · split
    · exact ((h'.toRelay k _).say _).stopIdle.follow _
    · refine (h'.endDownstream r).classify ?_ dev dir
      unfold State.endDownstream; split <;> exact k

theorem failRelay (h : Becomes Q a s) : Becomes Q a s.failRelay := by
  unfold State.failRelay
  split
  · rename_i r hp
    have k : s.writing = none := by simp [State.writing, hp]
    split
    · exact ((h.toRelay k _).say _).startIdle
    · exact ((h.toRelay k _).say _).startIdle
    · exact ((h.toRelay k _).say _).startIdle
    · exact h.toRelay k _
  · exact h

theorem idleRelay (h : Becomes Q a s) (r : OpenRelay) : Becomes Q a (s.idleRelay r) := by
  unfold State.idleRelay
  split
  · exact (h.drive _).releaseRelay
  · exact h.endDownstream r

theorem idleExpired (h : Becomes Q a s) : Becomes Q a s.idleExpired := by
  unfold State.idleExpired
  split
  · exact (((h.endAborted _).dropLanding).record _ _ _ _).leaveWrite rfl nofun
  · rename_i hp
    have k : s.writing = none := by simp [State.writing, hp]
    split
    · exact (h.closeRead.record _ _ _ _).toIdle (by simp [State.writing, hp])
    · exact h.toIdle k
  · rename_i r hp
    refine ((h.idleRelay r).record _ _ _ _).toIdle ?_
    unfold State.idleRelay State.endDownstream
    split
    · simp [State.writing, hp]
    · split <;> simp [State.writing, hp]
  · rename_i hw _ _
    refine h.toIdle ?_
    cases hp : s.up.phase with
    | write w => exact absurd hp (hw w)
    | _ => simp [State.writing, hp]

/-! ## The commit engine -/

theorem fillEnded (h : Becomes Q a s) (m : MemberIx) (x : Micros) (report : ReadReport) :
    Becomes Q a (s.fillEnded m x report) := by
  unfold State.fillEnded
  split
  · refine Becomes.raiseStep ?_ m
    exact h.then_ (.slotChanged s m _ fun _ _ _ => ⟨rfl, rfl⟩)
  · exact h.busyRefused _ _ _
  · exact h.failAttempt _ _

theorem issueDone (h : Becomes Q a s) {m : MemberIx} (k : (s.slot m).isSome = true) :
    Becomes Q a (s.issueDone m) := by
  refine (h.updateFlight _ _).enterCycle ?_
  obtain ⟨f, hf⟩ := Option.isSome_iff_exists.mp k
  obtain ⟨e, he, hs⟩ := Option.bind_eq_some_iff.mp hf
  have st : e.state = .inFlight f := by
    unfold Entry.flight? at hs; split at hs <;> simp_all
  obtain ⟨mem, hm, -⟩ := State.slotEntry_spec (State.slotEntry_updateFlight he st)
  exact ⟨_, mem, hm, rfl⟩

theorem issueEnded (h : Becomes Q a s) (m : MemberIx) (x : Micros) (report : WriteReport) :
    Becomes Q a (s.issueEnded m x report) := by
  unfold State.issueEnded
  split
  · split
    · exact h.issueDone ‹_›
    · exact h
  · exact h.busyRefused _ _ _
  · exact h.failAttempt _ _

theorem cycleEnded (h : Becomes Q a s) (m : MemberIx) (f : Flight) :
    Becomes Q a (s.cycleEnded m f) := by
  unfold State.cycleEnded; dsimp only
  split
  · split
    · exact (h.leaveCycle m).nextStep _ _ _
    · exact (h.leaveCycle m).retire _
  · exact (h.leaveCycle m).nextStep _ _ _

theorem pollEnded (h : Becomes Q a s) (m : MemberIx) (ack : Bool) :
    Becomes Q a (s.pollEnded m ack) := by
  unfold State.pollEnded
  split
  · exact h
  · split
    · exact h.cycleEnded _ _
    · split
      · exact h.failAttempt _ _
      · exact h.updateFlight _ _

theorem verifyEnded (h : Becomes Q a s) (m : MemberIx) (x : Micros) (report : ReadReport) :
    Becomes Q a (s.verifyEnded m x report) := by
  unfold State.verifyEnded
  split
  · split
    · split
      · split
        · exact h.retire _
        · exact h.nextStep _ _ _
      · exact h.failAttempt _ _
    · exact h.busyRefused _ _ _
    · exact h.failAttempt _ _
  · exact h

theorem fetchEnded (h : Becomes Q a s) (report : ReadReport) : Becomes Q a (s.fetchEnded report) := by
  unfold State.fetchEnded
  split
  · split
    · split
      · split
        · exact ((h.say _).setRead _).serveByte _
        · exact h.setRead _
        · exact (h.say _).underrun _
      · exact h
    · exact h
  · exact h

/-! ## The downstream controller -/

theorem grantTo (h : Becomes Q a s) (r : Request) : Becomes Q a (s.grantTo r) := by
  unfold State.grantTo
  split
  · exact h.startRelay
  · exact h.setFetch _
  · split
    · exact h.setStartAccess _
    · exact h
  · split
    · exact h.setStartAccess _
    · exact h
  · split
    · exact h.setPortAccess _
    · exact h
  · split
    · exact h.setJob _
    · exact h
  · split
    · exact h.setJob _
    · exact h
  · exact h

theorem grant (h : Becomes Q a s) (r : Request) : Becomes Q a (s.grant r) := by
  have counted : s.starvationAfter r ≤ 4 ∨ s.starvationAfter r = s.ds.starvation := by
    unfold State.starvationAfter
    split
    · split
      · exact .inl (Nat.min_le_left _ _)
      · exact .inl (Nat.zero_le _)
    · split
      · exact .inl (Nat.zero_le _)
      · exact .inr rfl
  refine Becomes.grantTo ?_ r
  exact (h.then_ (.granted s _ counted)).alike
    ⟨rfl, rfl, rfl, rfl, rfl, rfl, rfl, rfl, rfl, rfl, rfl⟩

theorem abortStart (h : Becomes Q a s) (r : Request) : Becomes Q a (s.abortStart r) := by
  unfold State.abortStart
  split
  · split
    · exact h.setStartAccess _
    · exact h
  · exact h

theorem reportAbort (h : Becomes Q a s) (r : Request) : Becomes Q a (s.reportAbort r) := by
  unfold State.reportAbort
  split
  · exact h.failRelay
  · unfold State.abortFetch
    split
    · split
      · split
        · exact (h.say _).underrun _
        · exact h
      · exact h
    · exact h
  · exact h.failAttempt _ _
  · exact h.failAttempt _ _
  · exact h.failAttempt _ _
  · exact h.failAttempt _ _
  · exact h.abortStart _
  · exact h.abortStart _
  · unfold State.abortPortRead
    split
    · split
      · exact h.setPortAccess _
      · exact h
    · exact h
  all_goals
    unfold State.abortBlock
    split
    · exact h.refuse _
    · exact h

theorem faultBus (h : Becomes Q a s) (m : Option MemberIx) (p : Option Nat) (d : Nat) :
    Becomes Q a (s.faultBus m p d) :=
  ((h.record _ _ _ _).setCtl _).drive _

theorem abort (h : Becomes Q a s) (x : Holder) (d : Nat) : Becomes Q a (s.abort x d) :=
  (h.faultBus _ _ _).reportAbort _

theorem haltFetch (h : Becomes Q a s) : Becomes Q a s.haltFetch := by
  unfold State.haltFetch
  split
  · split
    · exact ((h.withdraw _).say _).underrun _
    · exact h
  · exact h

theorem haltRelay (h : Becomes Q a s) : Becomes Q a s.haltRelay := by
  unfold State.haltRelay
  split
  · rename_i hp
    exact h.refuseRelay (by simp [State.writing, hp])
  · exact h

theorem haltStart (h : Becomes Q a s) : Becomes Q a s.haltStart := by
  unfold State.haltStart
  split
  · split
    · exact h.setStartAccess _
    · exact h.askStart _
  · exact h

theorem haltPort (h : Becomes Q a s) : Becomes Q a s.haltPort := by
  unfold State.haltPort
  split
  · split
    · exact (h.withdraw _).refuse _
    · exact h
  · split
    · exact (h.withdraw _).refuse _
    · exact h
  · exact (h.withdraw _).refuse _
  · exact (h.withdraw _).refuse _
  · exact h

theorem dropCommitRequests (h : Becomes Q a s) : Becomes Q a s.dropCommitRequests :=
  h.alike ⟨rfl, rfl, rfl, rfl, rfl, rfl, rfl, rfl, rfl, rfl, rfl⟩

theorem enterHalt (h : Becomes Q a s) (k : s.os.part ≠ .haltDown) : Becomes Q a s.enterHalt := by
  have halted : Becomes Q a { s.record .busStuck none none 0 with
      os := { s.os with part := .haltDown, ret := some s.os.part } } := by
    refine (h.record .busStuck none none 0).setOs (fun j => ?_) fun right st => ?_
    · cases hp : s.os.part <;> simp_all [Operating.journaling]
    · rcases right st with starting | ⟨halt, -⟩
      · exact .inr ⟨rfl, congrArg some starting⟩
      · exact absurd halt k
  have controlled : Becomes Q a
      { s.record .busStuck none none 0 with
        os := { s.os with part := .haltDown, ret := some s.os.part }
        ds := { s.ds with ctl := .halted (s.now + haltRetry), starvation := 0 } } :=
    (halted.then_ (.granted _ 0 (.inl (Nat.zero_le _)))).setCtl _
  exact (controlled.dropCommitRequests.then_ (.halted _)).haltFetch.haltRelay.haltStart.haltPort

theorem resumeAccesses (h : Becomes Q a s) : Becomes Q a s.resumeAccesses := by
  unfold State.resumeAccesses; dsimp only
  split <;> split
  · exact (h.setStartAccess _).setPortAccess _
  · exact h.setPortAccess _
  · exact h.setStartAccess _
  · exact h

theorem resumeStart (h : Becomes Q a s) : Becomes Q a s.resumeStart := by
  unfold State.resumeStart
  split
  · rename_i hs
    exact h.continueStart (by simp [hs])
  · exact h.leaveIfReady
  · exact h.askStart _

theorem recoverTo (h : Becomes Q a s) (k : s.os.part = .haltDown) : Becomes Q a s.recoverTo := by
  unfold State.recoverTo
  split
  · rename_i ret
    exact Becomes.resumeStart (h.setOs (fun j => by simp [Operating.journaling, k, ret] at j)
      fun _ _ => .inl rfl)
  · rename_i ret
    refine h.setOs (fun j => by simp [Operating.journaling, k, ret] at j) fun right st => ?_
    simpa [k, ret] using right st
  · rename_i ret _
    have left : ∀ o : Operating, o.start = s.os.start → s.os.StartRight → o.StartRight := by
      intro o ho right st
      have := right (ho ▸ st)
      simp_all
    split
    · exact h.setOs (o := { s.os with part := .flush, ret := none }) (fun _ => rfl) (left _ rfl)
    · exact Becomes.setDrain
        (h.setOs (o := { s.os with part := .run, ret := none }) (fun _ => rfl) (left _ rfl)) _

theorem clearSucceeded (h : Becomes Q a s) : Becomes Q a s.clearSucceeded := by
  unfold State.clearSucceeded; dsimp only
  split
  · rename_i halt
    exact ((h.freeBus.record _ _ _ _).recoverTo halt).resumeAccesses
  · split
    · rename_i hs
      exact h.freeBus.continueStart (by rw [hs]; rfl)
    · exact h.freeBus.resumeAccesses
  · exact h.freeBus.resumeAccesses

theorem clearFailed (h : Becomes Q a s) : Becomes Q a s.clearFailed := by
  unfold State.clearFailed
  split
  · exact h.setCtl _
  · exact h.enterHalt ‹_›

/-! ## Drain and flush -/

theorem drainRequest (h : Becomes Q a s) : Becomes Q a s.drainRequest := by
  unfold State.drainRequest
  split
  · exact h.markAll
  · exact h.markAll
  · exact h.markAll
  · exact h.wake
  · exact h
  · exact h

theorem pfailTaken (h : Becomes Q a s) : Becomes Q a s.pfailTaken := by
  unfold State.pfailTaken
  split
  · rename_i run
    exact Becomes.enterFlush (h.setOs (fun _ => rfl) fun right st => by simpa [run] using right st)
  · rename_i doze
    split
    · exact h
    · have woken : s.wake = { s with os := { s.os with part := s.os.ret.getD .run, ret := none } } :=
        if_pos doze
      refine Becomes.enterFlush ?_
      rw [woken]
      exact h.setOs (o := { s.os with part := .flush, ret := none }) (fun _ => rfl) fun right st => by
        simpa [doze] using right st
  · split
    · refine Becomes.abortWrite ?_
      unfold State.ensureEpisode
      split
      · exact h.markAll
      · exact h.markAll.setDrain _
    · exact h
  · exact h

end Becomes
end Sys2Proof.Machine
end

section
/-! The effects of the maintenance port, and of every command: each command but a hard reset makes effects one
after another, after which the quiesce timer follows (`exec_taken`). -/

namespace Sys2Proof.Machine

/-! ## The maintenance port -/

theorem State.writing_of_closed {s : State} (h : ¬s.upstreamOpen = true) : s.writing = none := by
  cases hp : s.up.phase <;> simp_all [State.upstreamOpen, State.writing]

theorem State.writing_endDownstream (s : State) (r : OpenRelay) :
    (s.endDownstream r).writing = s.writing := by
  have up : (s.endDownstream r).up = s.up := s.endDownstream_sameBut r .up (by simp)
  rw [State.writing, up, State.writing]

/-- A selection takes a PENDING entry (R18, R19). -/
theorem State.selected_pending {s : State} {i : Nat} {e : Entry} (h : s.selected? = some i)
    (k : s.journal[i]? = some e) : e.isPending = true := by
  have picked := List.find?_some h
  simp only [State.offered, k, Bool.and_eq_true, State.eligible] at picked
  exact picked.1.1.1

namespace Becomes

variable {Q : Prop} {a s t : State}

theorem startReload (h : Becomes Q a s) (k : s.Still) : Becomes Q a s.startReload := by
  refine Becomes.requestDescriptor ?_ (.inr rfl)
  exact ((h.setJob .reloading).then_ (.tableChanged _ [] (.inr k))).then_
    (.operated _ { s.os with part := .starting, globals := none } (fun _ _ => .inr k)
      fun _ _ _ => .inl rfl)

theorem changeReload (h : Becomes Q a s) (k : s.writing = none) : Becomes Q a s.changeReload := by
  unfold State.changeReload
  split
  · split
    · rename_i empty
      exact h.startReload ⟨List.isEmpty_iff.mp empty, k⟩
    · exact h.refuse _
  · split
    · rename_i empty
      exact h.startReload ⟨List.isEmpty_iff.mp empty, k⟩
    · exact h.refuse _
  · exact h.refuse _

theorem changePass (h : Becomes Q a s) (k : s.writing = none) : Becomes Q a s.changePass := by
  unfold State.changePass; dsimp only
  split
  · rename_i run
    split
    · rename_i empty
      have still : s.Still := ⟨List.isEmpty_iff.mp empty, k⟩
      refine Becomes.finish ?_ _ _
      exact (h.then_ (.tableChanged s
        (s.members.map fun (m : Member) => { m with state := .unset }) (.inr still))).then_
          (.operated _ { s.os with part := .passthrough, cause := some .request }
            (fun _ _ => .inr still) fun _ right st => by simpa [run] using right st)
    · exact h.refuse _
  · exact h.refuse _

theorem runReload (h : Becomes Q a s) (c q : Byte) (pl : List Byte) :
    Becomes Q a (s.runReload c q pl) := by
  have started := h.startJob c q .reloadWaiting
  unfold State.runReload; dsimp only
  split
  · split
    · exact started
    · exact started.changeReload (State.writing_of_closed ‹_›)
  · split
    · exact started
    · exact started.changeReload (State.writing_of_closed ‹_›)
  · exact h.decline _ _ _

theorem runEnterPass (h : Becomes Q a s) (c q : Byte) (pl : List Byte) :
    Becomes Q a (s.runEnterPass c q pl) := by
  have started := h.startJob c q .passWaiting
  unfold State.runEnterPass; dsimp only
  split
  · split
    · exact started
    · exact started.changePass (State.writing_of_closed ‹_›)
  · exact h.decline _ _ _

theorem runMemberRetry (h : Becomes Q a s) (c q : Byte) (pl : List Byte) :
    Becomes Q a (s.runMemberRetry c q pl) := by
  unfold State.runMemberRetry
  split
  · exact h.answer _ _ _ _
  · split
    · exact Becomes.answer (h.then_ (.revived s _ ‹_›)) _ _ _ _
    · exact h.decline _ _ _

theorem runMemberDiscard (h : Becomes Q a s) (c q : Byte) (pl : List Byte) :
    Becomes Q a (s.runMemberDiscard c q pl) := by
  unfold State.runMemberDiscard
  split
  · exact h.answer _ _ _ _
  · split
    · exact Becomes.answer (h.then_ (.discarded s _ ‹_›)) _ _ _ _
    · exact h.decline _ _ _

theorem runWriteDescriptor (h : Becomes Q a s) (c q : Byte) (pl : List Byte) :
    Becomes Q a (s.runWriteDescriptor c q pl) := by
  unfold State.runWriteDescriptor
  split
  · exact h.decline _ _ _
  · split
    · exact h.decline _ _ _
    · split
      · exact (h.startJob _ _ _).raise _
      · exact (h.startJob _ _ _).raise _
      · exact h.decline _ _ _

theorem runReadDescriptor (h : Becomes Q a s) (c q : Byte) (pl : List Byte) :
    Becomes Q a (s.runReadDescriptor c q pl) := by
  unfold State.runReadDescriptor
  split
  · exact h.decline _ _ _
  · exact h.decline _ _ _
  · exact (h.startJob _ _ _).raise _

theorem runReadEntry (h : Becomes Q a s) (c q : Byte) (pl : List Byte) :
    Becomes Q a (s.runReadEntry c q pl) := by
  unfold State.runReadEntry
  split
  · exact h.answer _ _ _ _
  · exact h.answer _ _ _ _

theorem runSoftReset (h : Becomes Q a s) (c q : Byte) (pl : List Byte) :
    Becomes Q a (s.runSoftReset c q pl) := by
  unfold State.runSoftReset; dsimp only
  split
  · exact h.answer _ _ _ _
  · split
    · exact h.decline _ _ _
    · exact (h.answer _ _ _ _).setJob _

theorem runCommand (h : Becomes Q a s) (c : Cmd) (q : Byte) (pl : List Byte) :
    Becomes Q a (s.runCommand c q pl) := by
  cases c with
  | status => exact h.answer _ _ _ _
  | readEntry => exact h.runReadEntry _ _ pl
  | readFaults => exact Becomes.answer (h.then_ (.recordsRead s)) _ _ _ _
  | readDescriptor => exact h.runReadDescriptor _ _ pl
  | clearFaults => exact Becomes.answer (h.then_ (.recordsCleared s)) _ _ _ _
  | drain => exact h.drainRequest.answer _ _ _ _
  | memberRetry => exact h.runMemberRetry _ _ pl
  | memberDiscard => exact h.runMemberDiscard _ _ pl
  | writeDescriptor => exact h.runWriteDescriptor _ _ pl
  | reload => exact h.runReload _ _ pl
  | leavePassthrough => exact h.runReload _ _ pl
  | enterPassthrough => exact h.runEnterPass _ _ pl
  | softReset => exact h.runSoftReset _ _ pl

theorem decodeFrame (h : Becomes Q a s) (c q : Byte) (pl : List Byte) :
    Becomes Q a (s.decodeFrame c q pl) := by
  unfold State.decodeFrame
  split
  · exact h.answerBusy _ _
  · split
    · exact h.answer _ _ _ _
    · split
      · exact h.answer _ _ _ _
      · split
        · exact h.answer _ _ _ _
        · exact h.runCommand _ _ _

theorem receive (h : Becomes Q a s) (b : Byte) (high : Bool) : Becomes Q a (s.receive b high) := by
  unfold State.receive
  split
  · exact h
  · split
    · exact h.setRx _
    · exact h
  · split
    · unfold State.frameByte; dsimp only
      split
      · exact h.setRx _
      · split
        · split
          · exact h.setRx _
          · exact h.setRx _
        · split
          · exact h.setRx _
          · split
            · exact (h.setRx _).decodeFrame _ _ _
            · exact h.setRx _
    · exact h.setRx _

theorem blockWritten (h : Becomes Q a s) (report : WriteReport) :
    Becomes Q a (s.blockWritten report) := by
  unfold State.blockWritten
  split
  · split
    · exact h.setJob _
    · split
      · exact h.setJob _
      · exact h.refuse _
    · exact h.refuse _
  · exact h

theorem blockPolled (h : Becomes Q a s) (ack : Bool) : Becomes Q a (s.blockPolled ack) := by
  unfold State.blockPolled
  split
  · split
    · unfold State.blockStored
      split
      · exact (h.setJob _).raise _
      · exact (h.setJob _).raise _
    · split
      · exact h.setJob _
      · exact h.refuse _
  · exact h

theorem commandSent (h : Becomes Q a s) (p : Pins) : Becomes Q a (s.commandSent p) := by
  unfold State.commandSent
  split
  case isFalse => exact h.setPort _
  case isTrue =>
    unfold State.resetPart; dsimp only
    split
    · exact h.then_ (.restarted s _ rfl rfl rfl rfl ⟨rfl, rfl⟩ rfl fun _ => .inl rfl)
    · exact (h.then_ (.recorded s
        { stamp := 0, kind := .resetDiscard, member := none, page := none,
          detail := BitVec.ofNat 8 (s.journal.length + 128), lost := false, read := false } rfl)).then_
        (.restarted _ _ rfl rfl (by simp [State.release, State.stamp, State.reset]) rfl ⟨rfl, rfl⟩ rfl fun _ => .inl rfl)

end Becomes

/-! ## The commands -/

/-- A command that is taken makes effects one after another, and the quiesce timer follows (R174); one that
is not taken leaves the state. -/
def Taken (s : State) (r : Result) : Prop :=
  ∀ t, r = .next t → t = s ∨ ∃ u, s.inReset = false ∧ Becomes s.QuiesceRight s u ∧ t = u.settle

theorem State.taken_take {s : State} {body : State → Option State}
    (h : ∀ u, body s = some u → Becomes s.QuiesceRight s u) : Taken s (s.take body) := by
  intro t ht
  obtain ⟨-, same⟩ | ⟨-, -, same⟩ | ⟨u, running, hu, rfl⟩ := State.take_next ht
  · exact .inl same
  · exact .inl same
  · exact .inr ⟨u, running, h u hu, rfl⟩

theorem State.taken_takeRead {s : State} {mine : Request → Bool} {report : ReadReport}
    {body : Holder → State → State} (h : ∀ k, Becomes s.QuiesceRight s (body k s)) :
    Taken s (s.takeRead mine report body) := by
  intro t ht
  obtain same | ⟨k, running, -, -, rfl⟩ := State.takeRead_next ht
  · exact .inl same
  · exact .inr ⟨_, running, h k, rfl⟩

/-- The resets that the RESET line and the supply make, and their release (R164). -/
def isHardReset : Instr → Bool
  | .powerOnReset | .resetLineAsserted | .resetRelease _ => true
  | _ => false

theorem State.takeFrame_taken (s : State) (c q : Byte) (pl : List Byte) :
    Taken s (s.takeFrame c q pl) := by
  refine State.taken_take fun u hu => ?_
  dsimp only at hu
  split at hu
  · cases hu
  · split at hu <;> cases hu
    · exact ((Becomes.refl s).wake.setRx _).decodeFrame _ _ _
    · exact (Becomes.refl s).wake.setRx _

theorem execMselPulse_taken (s : State) : Taken s (execMselPulse s) := by
  have start := Becomes.refl (Q := s.QuiesceRight) s
  refine State.taken_take fun u hu => ?_
  dsimp only at hu; split at hu <;> cases hu
  exact start.setOs id id

theorem execMselWindowEnd_taken (s : State) : Taken s (execMselWindowEnd s) := by
  have start := Becomes.refl (Q := s.QuiesceRight) s
  refine State.taken_take fun u hu => ?_
  dsimp only at hu; split at hu <;> cases hu
  refine Becomes.leaveIfReady ?_
  have opened : ∀ (mode : Mode) (rx : Receiver), Becomes s.QuiesceRight s
      { s.advanceTo mselWindow with
        os := { s.os with msel := none, mode := mode }, port := { s.port with rx := rx } } :=
    fun mode rx => Becomes.setPort ((start.advanceTo mselWindow).setOs
      (o := { s.os with msel := none, mode := mode }) id id) _
  split
  · exact opened _ _
  · exact (opened _ _).record _ _ _ _

theorem execDescriptorReadEnd_taken (report : ReadReport) (s : State) : Taken s (execDescriptorReadEnd report s) := by
  have start := Becomes.refl (Q := s.QuiesceRight) s
  refine State.taken_takeRead fun k => ?_
  split
  · exact start.endTransaction.startReadEnd _
  · exact start.endTransaction.portReadEnd _

theorem execDescriptorReadRetryDue_taken (s : State) : Taken s (execDescriptorReadRetryDue s) := by
  have start := Becomes.refl (Q := s.QuiesceRight) s
  refine State.taken_take fun u hu => ?_
  dsimp only at hu
  split at hu
  · split at hu
    · split at hu <;> cases hu
      · exact (start.advanceTo _).askStart _
      · exact (start.advanceTo _).setStartAccess _
    · cases hu
  · split at hu
    · split at hu
      · cases hu; exact (start.advanceTo _).refuse _
      · split at hu <;> cases hu
        · exact ((start.advanceTo _).setPortAccess _).raise _
        · exact (start.advanceTo _).setPortAccess _
    · cases hu
  · cases hu

theorem execAnswerWindowEnd_taken (s : State) : Taken s (execAnswerWindowEnd s) := by
  have start := Becomes.refl (Q := s.QuiesceRight) s
  refine State.taken_take fun u hu => ?_
  split at hu
  · rename_i reading
    split at hu <;> cases hu
    exact ((start.advanceTo _).withdraw _).rejectDescriptor (by simp [reading]) _
  · split at hu <;> cases hu
    exact ((start.advanceTo _).withdraw _).refuse _
  · cases hu

theorem execProbeEnd_taken (ack : Bool) (s : State) : Taken s (execProbeEnd ack s) := by
  have start := Becomes.refl (Q := s.QuiesceRight) s
  refine State.taken_take fun u hu => ?_
  split at hu
  · split at hu <;> cases hu
    exact start.endTransaction.probeEnded _ _
  · cases hu

theorem execProbeRetryDue_taken (s : State) : Taken s (execProbeRetryDue s) := by
  have start := Becomes.refl (Q := s.QuiesceRight) s
  refine State.taken_take fun u hu => ?_
  dsimp only at hu
  split at hu
  · split at hu
    · split at hu <;> cases hu
      · exact (start.advanceTo _).askStart _
      · exact (start.advanceTo _).setStartAccess _
    · cases hu
  · cases hu

theorem execProbeWindowEnd_taken (s : State) : Taken s (execProbeWindowEnd s) := by
  have start := Becomes.refl (Q := s.QuiesceRight) s
  refine State.taken_take fun u hu => ?_
  dsimp only at hu
  split at hu
  · rename_i m x probing
    split at hu <;> cases hu
    rename_i w _
    have begun : s.os.start.isSome = true := by simp [probing]
    have moved := ((start.advanceTo (w + accessWindow)).withdraw (.probe m)).then_
      (.memberMoved _ m .offline nofun (.inr (.inl begun)))
    exact (moved.record _ _ _ _).probeNext begun _
  · cases hu

theorem execUpstreamStart_taken (s : State) : Taken s (execUpstreamStart s) := by
  have start := Becomes.refl (Q := s.QuiesceRight) s
  refine State.taken_take fun u hu => ?_
  split at hu <;> cases hu
  · exact start.wake.toAddress (by simp [State.writing, *])
  · exact start.wake.toAddress (by simp [State.writing, *])
  · exact start.wake.toAddress (by simp [State.writing, *])
  · exact start.restartWrite _
  · exact start.endRead ‹_› _
  · exact (start.toRelay (by simp [State.writing, *]) _).startIdle

theorem execAddressByte_taken (dev : DevAddr) (dir : Dir) (s : State) : Taken s (execAddressByte dev dir s) := by
  have start := Becomes.refl (Q := s.QuiesceRight) s
  refine State.taken_take fun u hu => ?_
  split at hu
  · cases hu
    exact start.classify (by simp [State.writing, *]) _ _
  · split at hu <;> cases hu
    exact start.relayAddress (by simp [State.writing, *]) _ _ _
  · cases hu

theorem execWordAddressByte_taken (b : Byte) (s : State) : Taken s (execWordAddressByte b s) := by
  have start := Becomes.refl (Q := s.QuiesceRight) s
  refine State.taken_take fun u hu => ?_
  dsimp only at hu
  split at hu
  · rename_i w hp
    split at hu
    · cases hu
    · have taken := ((start.setWrite (w' := { w with word := w.word ++ [b] }) hp rfl).say
        [.ack]).startIdle
      split at hu <;> cases hu
      · exact taken.bindLanding rfl _
      · exact taken
  · cases hu

theorem execWriteDataByte_taken (b : Byte) (s : State) : Taken s (execWriteDataByte b s) := by
  have start := Becomes.refl (Q := s.QuiesceRight) s
  refine State.taken_take fun u hu => ?_
  split at hu
  · split at hu
    · split at hu
      · cases hu; exact (start.say _).startIdle
      · split at hu <;> cases hu
        · exact start.refuseProtected ‹_›
        · exact start.storeByte ‹_› _
    · cases hu
  · cases hu

theorem execWriteStop_taken (s : State) : Taken s (execWriteStop s) := by
  have start := Becomes.refl (Q := s.QuiesceRight) s
  refine State.taken_take fun u hu => ?_
  split at hu <;> cases hu
  exact start.stopWrite ‹_›

theorem execWriteRepeatedStart_taken (s : State) : Taken s (execWriteRepeatedStart s) := by
  have start := Becomes.refl (Q := s.QuiesceRight) s
  refine State.taken_take fun u hu => ?_
  split at hu <;> cases hu
  exact start.restartWrite _

theorem execReadByteAnswer_taken (ack : Bool) (s : State) : Taken s (execReadByteAnswer ack s) := by
  have start := Becomes.refl (Q := s.QuiesceRight) s
  refine State.taken_take fun u hu => ?_
  dsimp only at hu
  split at hu
  · split at hu
    · cases hu
    · split at hu
      · cases hu
      · split at hu <;> cases hu
        · exact ((start.setPointer _ _).say _).startIdle.serveDue
        · exact ((start.setPointer _ _).say _).startIdle.setRead _
  · cases hu

theorem execReadEnd_taken (how : Ending) (s : State) : Taken s (execReadEnd how s) := by
  have start := Becomes.refl (Q := s.QuiesceRight) s
  refine State.taken_take fun u hu => ?_
  split at hu <;> cases hu
  exact start.endRead ‹_› _

theorem execFetchEnd_taken (report : ReadReport) (s : State) : Taken s (execFetchEnd report s) := by
  have start := Becomes.refl (Q := s.QuiesceRight) s
  exact State.taken_takeRead fun k => start.endTransaction.fetchEnded _

theorem execFetchDueAgain_taken (s : State) : Taken s (execFetchDueAgain s) := by
  have start := Becomes.refl (Q := s.QuiesceRight) s
  refine State.taken_take fun u hu => ?_
  dsimp only at hu
  split at hu
  · split at hu
    · split at hu
      · split at hu <;> cases hu
        · exact (start.advanceTo _).setFetch _
        · exact ((start.advanceTo _).setFetch _).raise _
      · cases hu
    · cases hu
  · cases hu

theorem execReadHoldExpiry_taken (s : State) : Taken s (execReadHoldExpiry s) := by
  have start := Becomes.refl (Q := s.QuiesceRight) s
  refine State.taken_take fun u hu => ?_
  split at hu
  · split at hu <;> cases hu
    exact (((start.advanceTo _).withdraw _).say _).underrun _
  · cases hu

theorem execRelayHoldExpiry_taken (s : State) : Taken s (execRelayHoldExpiry s) := by
  have start := Becomes.refl (Q := s.QuiesceRight) s
  refine State.taken_take fun u hu => ?_
  split at hu <;> cases hu
  exact (start.advanceTo _).refuseRelay (by simp [State.writing, *])

theorem execRelayHostByte_taken (b : Byte) (s : State) : Taken s (execRelayHostByte b s) := by
  have start := Becomes.refl (Q := s.QuiesceRight) s
  refine State.taken_take fun u hu => ?_
  dsimp only at hu
  split at hu
  · rename_i r hp
    have k : s.writing = none := by simp [State.writing, hp]
    split at hu
    · cases hu; exact (start.say _).startIdle
    · split at hu
      · cases hu
      · split at hu
        · cases hu; exact (start.say _).startIdle
        · split at hu <;> cases hu
          · exact ((((start.record .protectedWrite (s.memberAt r.dev)
              (some (r.regionAddr / 64)) 0).toRelay k _).say _).startIdle.drive _).leaveOpen
          · exact ((start.toRelay k _).say _).stopIdle.drive _
  · cases hu

theorem execRelayTargetAnswer_taken (ack : Bool) (s : State) : Taken s (execRelayTargetAnswer ack s) := by
  have start := Becomes.refl (Q := s.QuiesceRight) s
  refine State.taken_take fun u hu => ?_
  split at hu
  · split at hu <;> cases hu
    exact start.answerRelay (by simp [State.writing, *]) _ _
  · cases hu

theorem execRelayReadByte_taken (b : Byte) (s : State) : Taken s (execRelayReadByte b s) := by
  have start := Becomes.refl (Q := s.QuiesceRight) s
  refine State.taken_take fun u hu => ?_
  split at hu
  · split at hu <;> cases hu
    exact ((start.toRelay (by simp [State.writing, *]) _).say _).startIdle
  · cases hu

theorem execRelayHostReadAnswer_taken (ack : Bool) (s : State) : Taken s (execRelayHostReadAnswer ack s) := by
  have start := Becomes.refl (Q := s.QuiesceRight) s
  refine State.taken_take fun u hu => ?_
  split at hu
  · split at hu <;> cases hu
    exact start.hostAnswered (by simp [State.writing, *]) _ _
  · cases hu

theorem execRelayStop_taken (s : State) : Taken s (execRelayStop s) := by
  have start := Becomes.refl (Q := s.QuiesceRight) s
  refine State.taken_take fun u hu => ?_
  split at hu <;> cases hu
  refine (start.endDownstream _).toIdle ?_
  rw [State.writing_endDownstream]; simp [State.writing, *]

theorem execRelayRepeatedStart_taken (dev : DevAddr) (dir : Dir) (s : State) : Taken s (execRelayRepeatedStart dev dir s) := by
  have start := Becomes.refl (Q := s.QuiesceRight) s
  refine State.taken_take fun u hu => ?_
  split at hu <;> cases hu
  exact start.relayAddress (by simp [State.writing, *]) _ _ _

theorem execUpTimeout_taken (s : State) : Taken s (execUpTimeout s) := by
  have start := Becomes.refl (Q := s.QuiesceRight) s
  refine State.taken_take fun u hu => ?_
  split at hu <;> cases hu
  exact ((start.advanceTo _).say _).idleExpired

theorem execSelection_taken (s : State) : Taken s (execSelection s) := by
  have start := Becomes.refl (Q := s.QuiesceRight) s
  refine State.taken_take fun u hu => ?_
  split at hu
  · split at hu
    · rename_i i hi
      split at hu <;> cases hu
      rename_i e he
      refine Becomes.raiseStep ?_ _
      exact start.then_ (.selected s i e _ he (State.selected_pending hi he))
    · cases hu
  · cases hu

theorem execDwellExpiry_taken (i : Nat) (s : State) : Taken s (execDwellExpiry i s) := by
  have start := Becomes.refl (Q := s.QuiesceRight) s
  refine State.taken_take fun u hu => ?_
  split at hu <;> cases hu
  exact start.advanceTo _

theorem execFillReadEnd_taken (report : ReadReport) (s : State) : Taken s (execFillReadEnd report s) := by
  have start := Becomes.refl (Q := s.QuiesceRight) s
  refine State.taken_takeRead fun k => ?_
  split
  · exact start.endTransaction.fillEnded _ _ _
  · exact start

theorem execIssueEnd_taken (report : WriteReport) (s : State) : Taken s (execIssueEnd report s) := by
  have start := Becomes.refl (Q := s.QuiesceRight) s
  refine State.taken_take fun u hu => ?_
  split at hu
  · split at hu <;> cases hu
    exact start.endTransaction.issueEnded _ _ _
  · cases hu

theorem execBusyRepeatDue_taken (m : MemberIx) (s : State) : Taken s (execBusyRepeatDue m s) := by
  have start := Becomes.refl (Q := s.QuiesceRight) s
  refine State.taken_take fun u hu => ?_
  split at hu
  · split at hu
    · split at hu <;> cases hu
      exact ((start.advanceTo _).updateFlight _ _).raiseStep _
    · cases hu
  · cases hu

theorem execPollDue_taken (m : MemberIx) (s : State) : Taken s (execPollDue m s) := by
  have start := Becomes.refl (Q := s.QuiesceRight) s
  refine State.taken_take fun u hu => ?_
  split at hu
  · split at hu
    · split at hu <;> cases hu
      exact ((start.advanceTo _).updateFlight _ _).raiseStep _
    · cases hu
  · cases hu

theorem execPollEnd_taken (ack : Bool) (s : State) : Taken s (execPollEnd ack s) := by
  have start := Becomes.refl (Q := s.QuiesceRight) s
  refine State.taken_take fun u hu => ?_
  split at hu
  · split at hu <;> cases hu
    exact start.endTransaction.pollEnded _ _
  · cases hu

theorem execWriteCycleTimeout_taken (m : MemberIx) (s : State) : Taken s (execWriteCycleTimeout m s) := by
  have start := Becomes.refl (Q := s.QuiesceRight) s
  refine State.taken_take fun u hu => ?_
  dsimp only at hu
  split at hu
  · split at hu
    · split at hu <;> cases hu
      · exact start.advanceTo _
      · exact (start.advanceTo _).failAttempt _ _
    · cases hu
  · cases hu

theorem execVerifyReadEnd_taken (report : ReadReport) (s : State) : Taken s (execVerifyReadEnd report s) := by
  have start := Becomes.refl (Q := s.QuiesceRight) s
  refine State.taken_takeRead fun k => ?_
  split
  · exact start.endTransaction.verifyEnded _ _ _
  · exact start

theorem execArbiterChoice_taken (high : Bool) (s : State) : Taken s (execArbiterChoice high s) := by
  have start := Becomes.refl (Q := s.QuiesceRight) s
  refine State.taken_take fun u hu => ?_
  split at hu
  · split at hu
    · split at hu <;> cases hu
      · exact start.grant _
      · exact start.openFor _
    · cases hu
  · cases hu

theorem execLinesHighAtCheck_taken (s : State) : Taken s (execLinesHighAtCheck s) := by
  have start := Becomes.refl (Q := s.QuiesceRight) s
  refine State.taken_take fun u hu => ?_
  split at hu
  · split at hu <;> cases hu
    exact start.grant _
  · cases hu

theorem execStuckBusFound_taken (s : State) : Taken s (execStuckBusFound s) := by
  have start := Becomes.refl (Q := s.QuiesceRight) s
  refine State.taken_take fun u hu => ?_
  split at hu <;> cases hu
  exact ((start.advanceTo _).setCtl _).drive _

theorem execStretchTimeout_taken (after : Micros) (s : State) : Taken s (execStretchTimeout s after) := by
  have start := Becomes.refl (Q := s.QuiesceRight) s
  refine State.taken_take fun u hu => ?_
  dsimp only at hu
  split at hu
  · split at hu <;> cases hu
    exact (start.advanceTo _).abort _ _
  · split at hu <;> cases hu
    exact (start.advanceTo _).faultBus _ _ _

theorem execCollision_taken (s : State) : Taken s (execCollision s) := by
  have start := Becomes.refl (Q := s.QuiesceRight) s
  refine State.taken_take fun u hu => ?_
  split at hu
  · split at hu <;> cases hu
    exact start.abort _ _
  · split at hu <;> cases hu
    exact start.faultBus _ _ _

theorem execBusClearEnd_taken (n : Nat) (high : Bool) (s : State) : Taken s (execBusClearEnd n high s) := by
  have start := Becomes.refl (Q := s.QuiesceRight) s
  refine State.taken_take fun u hu => ?_
  dsimp only at hu
  split at hu
  · split at hu
    · split at hu <;> cases hu
      · exact (start.drive _).clearSucceeded
      · exact ((start.advanceTo _).drive _).clearFailed
    · cases hu; exact (start.drive _).clearFailed
  · cases hu

theorem execBusClearSclTimeout_taken (n : Nat) (s : State) : Taken s (execBusClearSclTimeout s n) := by
  have start := Becomes.refl (Q := s.QuiesceRight) s
  refine State.taken_take fun u hu => ?_
  split at hu <;> cases hu
  exact ((start.advanceTo _).drive _).clearFailed

theorem execHaltRetryTimer_taken (s : State) : Taken s (execHaltRetryTimer s) := by
  have start := Becomes.refl (Q := s.QuiesceRight) s
  refine State.taken_take fun u hu => ?_
  split at hu <;> cases hu
  exact ((start.advanceTo _).setCtl _).drive _

theorem execDrainRisingEdge_taken (lb : Bool) (la : Bool) (s : State) : Taken s (execDrainRisingEdge s lb la) := by
  have start := Becomes.refl (Q := s.QuiesceRight) s
  refine State.taken_take fun u hu => ?_
  dsimp only at hu; split at hu <;> cases hu
  · exact start.setDrain _
  · exact Becomes.drainRequest (start.setDrain _)

theorem execPfailAssertion_taken (s : State) : Taken s (execPfailAssertion s) := by
  have start := Becomes.refl (Q := s.QuiesceRight) s
  refine State.taken_take fun u hu => ?_
  split at hu <;> cases hu
  exact Becomes.pfailTaken (start.setDrain _)

theorem execPfailDeassertion_taken (s : State) : Taken s (execPfailDeassertion s) := by
  have start := Becomes.refl (Q := s.QuiesceRight) s
  refine State.taken_take fun u hu => ?_
  dsimp only at hu
  split at hu
  · split at hu <;> cases hu
    · rename_i flush
      refine Becomes.setDrain (Becomes.setOs (o := { s.os with part := .run }) (start.setDrain _)
        (fun _ => rfl) fun right st => ?_) _
      simpa [show s.os.part = .flush from flush] using right st
    · exact start.setDrain _
  · cases hu

theorem execFlushExpired_taken (s : State) : Taken s (execFlushExpired s) := by
  have start := Becomes.refl (Q := s.QuiesceRight) s
  refine State.taken_take fun u hu => ?_
  dsimp only at hu
  split at hu
  · split at hu
    · split at hu <;> cases hu
      · exact (start.advanceTo _).setDrain _
      · exact ((start.advanceTo _).setDrain _).record _ _ _ _
    · cases hu
  · cases hu

theorem execQuiesceExpiry_taken (s : State) : Taken s (execQuiesceExpiry s) := by
  have start := Becomes.refl (Q := s.QuiesceRight) s
  refine State.taken_take fun u hu => ?_
  dsimp only at hu
  split at hu <;> cases hu
  rename_i x running
  refine (start.advanceTo _).then_ (.operated _ _ (fun quiet _ => .inr ?_) fun quiet right st => ?_)
  · have q : s.quiet = true := by rw [← quiet.timer, running]; rfl
    simp only [State.quiet, Bool.and_eq_true, List.isEmpty_iff, Bool.not_eq_true'] at q
    obtain ⟨⟨⟨⟨⟨-, empty⟩, closed⟩, -⟩, -⟩, -⟩ := q
    exact ⟨empty, State.writing_of_closed (Bool.eq_false_iff.mp closed)⟩
  · have q : s.quiet = true := by rw [← quiet.timer, running]; rfl
    simp only [State.quiet, Bool.and_eq_true, Bool.or_eq_true, beq_iff_eq] at q
    obtain ⟨⟨⟨⟨⟨⟨part, -⟩, -⟩, -⟩, -⟩, -⟩, -⟩ := q
    rcases right st with starting | ⟨halt, -⟩ <;> rcases part with run | pass <;> simp_all

theorem execDeferredChange_taken (s : State) : Taken s (execDeferredChange s) := by
  have start := Becomes.refl (Q := s.QuiesceRight) s
  refine State.taken_take fun u hu => ?_
  split at hu
  · cases hu
  · rename_i closed
    have still := State.writing_of_closed closed
    split at hu <;> cases hu
    · exact start.changeReload still
    · exact start.changePass still

theorem execMrxByte_taken (b : Byte) (high : Bool) (s : State) : Taken s (execMrxByte b high s) := by
  have start := Becomes.refl (Q := s.QuiesceRight) s
  refine State.taken_take fun u hu => ?_
  split at hu <;> cases hu
  exact start.wake.receive _ _

theorem execFrameGapTimeout_taken (s : State) : Taken s (execFrameGapTimeout s) := by
  have start := Becomes.refl (Q := s.QuiesceRight) s
  refine State.taken_take fun u hu => ?_
  split at hu <;> cases hu
  exact (start.advanceTo _).setRx _

theorem execDescriptorWriteEnd_taken (report : WriteReport) (s : State) : Taken s (execDescriptorWriteEnd report s) := by
  have start := Becomes.refl (Q := s.QuiesceRight) s
  refine State.taken_take fun u hu => ?_
  split at hu <;> cases hu
  exact start.endTransaction.blockWritten _

theorem execDescriptorWriteRetryDue_taken (s : State) : Taken s (execDescriptorWriteRetryDue s) := by
  have start := Becomes.refl (Q := s.QuiesceRight) s
  refine State.taken_take fun u hu => ?_
  dsimp only at hu
  split at hu
  · split at hu <;> cases hu
    · exact (start.advanceTo _).refuse _
    · exact ((start.advanceTo _).setJob _).raise _
  · cases hu

theorem execDescriptorWritePollDue_taken (s : State) : Taken s (execDescriptorWritePollDue s) := by
  have start := Becomes.refl (Q := s.QuiesceRight) s
  refine State.taken_take fun u hu => ?_
  dsimp only at hu
  split at hu
  · split at hu <;> cases hu
    · exact (start.advanceTo _).refuse _
    · exact ((start.advanceTo _).setJob _).raise _
  · cases hu

theorem execDescriptorWritePollEnd_taken (ack : Bool) (s : State) : Taken s (execDescriptorWritePollEnd ack s) := by
  have start := Becomes.refl (Q := s.QuiesceRight) s
  refine State.taken_take fun u hu => ?_
  split at hu <;> cases hu
  exact start.endTransaction.blockPolled _

theorem execResponseSent_taken (p : Pins) (s : State) : Taken s (execResponseSent p s) := by
  have start := Becomes.refl (Q := s.QuiesceRight) s
  refine State.taken_take fun u hu => ?_
  dsimp only at hu
  split at hu
  · cases hu
  · split at hu <;> cases hu
    · exact start.setPort _
    · exact Becomes.commandSent (start.setPort _) p

theorem execUpstreamStop_taken (s : State) : Taken s (execUpstreamStop s) := by
  have start := Becomes.refl (Q := s.QuiesceRight) s
  refine State.taken_take fun u hu => ?_
  split at hu <;> cases hu
  · exact start.toIdle (by simp [State.writing, *])
  · exact start.toIdle (by simp [State.writing, *])
  · exact start.stopWrite ‹_›
  · exact start.endRead ‹_› _
  · refine (start.endDownstream _).toIdle ?_
    rw [State.writing_endDownstream]; simp [State.writing, *]

theorem execMrxStartBit_taken (s : State) : Taken s (execMrxStartBit s) := by
  have start := Becomes.refl (Q := s.QuiesceRight) s
  refine State.taken_take fun u hu => ?_
  split at hu <;> cases hu
  exact start.wake

/-- Every command but a hard reset makes effects (log entry 4). -/
theorem exec_taken (c : Instr) (s : State) (h : isHardReset c = false) : Taken s (exec c s) := by
  cases c with
  | powerOnReset => cases h
  | resetLineAsserted => cases h
  | resetRelease p => cases h
  | mselPulse => exact execMselPulse_taken s
  | mselWindowEnd => exact execMselWindowEnd_taken s
  | descriptorReadEnd report => exact execDescriptorReadEnd_taken report s
  | descriptorReadRetryDue => exact execDescriptorReadRetryDue_taken s
  | answerWindowEnd => exact execAnswerWindowEnd_taken s
  | probeEnd ack => exact execProbeEnd_taken ack s
  | probeRetryDue => exact execProbeRetryDue_taken s
  | probeWindowEnd => exact execProbeWindowEnd_taken s
  | upstreamStart => exact execUpstreamStart_taken s
  | addressByte dev dir => exact execAddressByte_taken dev dir s
  | wordAddressByte b => exact execWordAddressByte_taken b s
  | writeDataByte b => exact execWriteDataByte_taken b s
  | writeStop => exact execWriteStop_taken s
  | writeRepeatedStart => exact execWriteRepeatedStart_taken s
  | readByteAnswer ack => exact execReadByteAnswer_taken ack s
  | readEnd how => exact execReadEnd_taken how s
  | fetchEnd report => exact execFetchEnd_taken report s
  | fetchDueAgain => exact execFetchDueAgain_taken s
  | readHoldExpiry => exact execReadHoldExpiry_taken s
  | relayHoldExpiry => exact execRelayHoldExpiry_taken s
  | relayHostByte b => exact execRelayHostByte_taken b s
  | relayTargetAnswer ack => exact execRelayTargetAnswer_taken ack s
  | relayReadByte b => exact execRelayReadByte_taken b s
  | relayHostReadAnswer ack => exact execRelayHostReadAnswer_taken ack s
  | relayStop => exact execRelayStop_taken s
  | relayRepeatedStart dev dir => exact execRelayRepeatedStart_taken dev dir s
  | upTimeout => exact execUpTimeout_taken s
  | selection => exact execSelection_taken s
  | dwellExpiry i => exact execDwellExpiry_taken i s
  | fillReadEnd report => exact execFillReadEnd_taken report s
  | issueEnd report => exact execIssueEnd_taken report s
  | busyRepeatDue m => exact execBusyRepeatDue_taken m s
  | pollDue m => exact execPollDue_taken m s
  | pollEnd ack => exact execPollEnd_taken ack s
  | writeCycleTimeout m => exact execWriteCycleTimeout_taken m s
  | verifyReadEnd report => exact execVerifyReadEnd_taken report s
  | arbiterChoice high => exact execArbiterChoice_taken high s
  | linesHighAtCheck => exact execLinesHighAtCheck_taken s
  | stuckBusFound => exact execStuckBusFound_taken s
  | stretchTimeout after => exact execStretchTimeout_taken after s
  | collision => exact execCollision_taken s
  | busClearEnd n high => exact execBusClearEnd_taken n high s
  | busClearSclTimeout n => exact execBusClearSclTimeout_taken n s
  | haltRetryTimer => exact execHaltRetryTimer_taken s
  | drainRisingEdge lb la => exact execDrainRisingEdge_taken lb la s
  | pfailAssertion => exact execPfailAssertion_taken s
  | pfailDeassertion => exact execPfailDeassertion_taken s
  | flushExpired => exact execFlushExpired_taken s
  | quiesceExpiry => exact execQuiesceExpiry_taken s
  | deferredChange => exact execDeferredChange_taken s
  | mrxByte b high => exact execMrxByte_taken b high s
  | frameGapTimeout => exact execFrameGapTimeout_taken s
  | unknownCommand c q pl => exact State.takeFrame_taken s c q pl
  | status q pl => exact State.takeFrame_taken s _ q pl
  | readEntry q pl => exact State.takeFrame_taken s _ q pl
  | readFaults q pl => exact State.takeFrame_taken s _ q pl
  | readDescriptor q pl => exact State.takeFrame_taken s _ q pl
  | clearFaults q pl => exact State.takeFrame_taken s _ q pl
  | drain q pl => exact State.takeFrame_taken s _ q pl
  | memberRetry q pl => exact State.takeFrame_taken s _ q pl
  | memberDiscard q pl => exact State.takeFrame_taken s _ q pl
  | writeDescriptor q pl => exact State.takeFrame_taken s _ q pl
  | descriptorWriteEnd report => exact execDescriptorWriteEnd_taken report s
  | descriptorWriteRetryDue => exact execDescriptorWriteRetryDue_taken s
  | descriptorWritePollDue => exact execDescriptorWritePollDue_taken s
  | descriptorWritePollEnd ack => exact execDescriptorWritePollEnd_taken ack s
  | reload q pl => exact State.takeFrame_taken s _ q pl
  | leavePassthrough q pl => exact State.takeFrame_taken s _ q pl
  | enterPassthrough q pl => exact State.takeFrame_taken s _ q pl
  | softReset q pl => exact State.takeFrame_taken s _ q pl
  | responseSent p => exact execResponseSent_taken p s
  | upstreamStop => exact execUpstreamStop_taken s
  | mrxStartBit => exact execMrxStartBit_taken s

end Sys2Proof.Machine
end

section
/-! The invariants of the queue, the ring and the bounds (O2, O5, O8): each effect keeps them. -/

namespace Sys2Proof.Machine

/-! ## From the effects to the commands -/

/-- What every effect keeps, and the resets and the quiesce timer do not touch, every command keeps. -/
theorem exec_keeps {P : State → Prop} (effect : ∀ Q s t, Effect Q s t → P s → P t)
    (settled : ∀ s, P s → P s.settle) {c : Instr} {s t : State} (hc : isHardReset c = false)
    (hs : P s) (h : exec c s = .next t) : P t := by
  obtain rfl | ⟨u, -, hu, rfl⟩ := exec_taken c s hc t h
  · exact hs
  · exact settled u (hu.keeps (effect _) hs)

/-- Settles O2: no effect changes the queue, and a reset keeps it. -/
theorem commandsKeepTheQueue : Obligations.CommandsKeepTheQueue := by
  intro c s t h
  by_cases hc : isHardReset c = true
  · cases c with
    | powerOnReset => cases h; rfl
    | resetLineAsserted =>
      cases h; unfold State.resetPart; dsimp only; split <;> rfl
    | resetRelease p =>
      simp only [exec, execResetRelease] at h
      split at h <;> cases h <;> rfl
    | _ => cases hc
  · refine exec_keeps (P := fun u => u.pending = s.pending) ?_ (fun _ k => k) (by simpa using hc) rfl h
    intro Q u v e hu
    cases e with
    | alike k => exact k.1.trans hu
    | restarted _ hp => exact hp.trans hu
    | landed w l => simpa using hu
    | discarded m => simpa [State.discardMember] using hu
    | revived m => simpa [State.retryMember] using hu
    | halted => simpa [State.returnToPending] using hu
    | _ => exact hu

/-! ## The ring -/

/-- The resets write at most one record, which is unread, or empty the ring (R161). -/
theorem exec_hardReset_log {c : Instr} {s t : State} (hc : isHardReset c = true)
    (h : exec c s = .next t) :
    t.log = [] ∨ t.log = s.log ∨ ∃ r, r.read = false ∧ t.log = pushRecord r s.log := by
  cases c with
  | powerOnReset => cases h; exact .inl rfl
  | resetLineAsserted =>
    cases h; unfold State.resetPart; dsimp only
    split
    · exact .inr (.inl rfl)
    · exact .inr (.inr ⟨_, rfl, rfl⟩)
  | resetRelease p =>
    simp only [exec, execResetRelease] at h
    split at h <;> cases h <;> exact .inr (.inl rfl)
  | _ => cases hc

/-- A property of the ring that a new record, a reading and a clearing keep is kept by every step. -/
theorem step_keeps_log {P : List FaultRecord → Prop} (empty : P [])
    (push : ∀ r l, r.read = false → P l → P (pushRecord r l)) (mark : ∀ l, P l → P (markOldest 4 l))
    {s t : State} (hs : P s.log) (h : step s = .next t) : P t.log := by
  unfold step at h
  split at h
  · cases h; unfold State.tick; split <;> exact hs
  · rename_i c rest _
    by_cases hc : isHardReset c = true
    · obtain k | k | ⟨r, unread, k⟩ := exec_hardReset_log (s := { s with pending := rest }) hc h <;> rw [k]
      · exact empty
      · exact hs
      · exact push r _ unread hs
    · refine exec_keeps (P := fun u => P u.log) ?_ (fun _ k => k) (by simpa using hc)
        (s := { s with pending := rest }) hs h
      intro Q u v e hu
      cases e with
      | alike k =>
        obtain ⟨-, -, -, -, -, -, -, -, -, log, -⟩ := k
        exact log ▸ hu
      | recorded r unread => exact push r _ unread hu
      | recordsRead => exact mark _ hu
      | recordsCleared => exact empty
      | restarted _ _ _ hl => exact hl ▸ hu
      | landed w l => simpa using hu
      | _ => exact hu

/-- The read records stand before the unread ones. -/
def ReadFirst (l : List FaultRecord) : Prop := l.Pairwise fun a b => b.read = true → a.read = true

theorem ReadFirst.append_unread {l : List FaultRecord} {r : FaultRecord} (h : ReadFirst l)
    (k : r.read = false) : ReadFirst (l ++ [r]) := by
  refine List.pairwise_append.mpr ⟨h, List.pairwise_singleton _ _, fun a _ b hb read => ?_⟩
  rw [List.mem_singleton.mp hb, k] at read
  cases read

theorem ReadFirst.pushRecord {l : List FaultRecord} {r : FaultRecord} (k : r.read = false)
    (h : ReadFirst l) : ReadFirst (pushRecord r l) := by
  cases l with
  | nil => exact List.pairwise_singleton _ _
  | cons old rest =>
    simp only [Machine.pushRecord]
    split
    · exact h.append_unread k
    · exact ReadFirst.append_unread (List.Pairwise.of_cons h) k

theorem ReadFirst.markOldest {l : List FaultRecord} (h : ReadFirst l) :
    ∀ n, ReadFirst (markOldest n l) := by
  induction l with
  | nil => intro n; cases n <;> exact List.Pairwise.nil
  | cons r rest ih =>
    have rest_first := ih (List.Pairwise.of_cons h)
    intro n
    cases n with
    | zero => exact h
    | succ n =>
      simp only [Machine.markOldest]
      split
      · rename_i read
        exact List.pairwise_cons.mpr ⟨fun _ _ _ => read, rest_first (n + 1)⟩
      · exact List.pairwise_cons.mpr ⟨fun _ _ _ => rfl, rest_first n⟩

/-- Settles O8: a new record is unread, and a reading marks the oldest. -/
theorem readRecordsFirstKept : Obligations.ReadRecordsFirstKept := fun _ _ first h =>
  step_keeps_log (P := ReadFirst) List.Pairwise.nil (fun _ _ => ReadFirst.pushRecord)
    (fun _ k => k.markOldest 4) first h

theorem markOldest_length (n : Nat) (l : List FaultRecord) : (markOldest n l).length = l.length := by
  induction l generalizing n with
  | nil => cases n <;> rfl
  | cons r rest ih =>
    cases n with
    | zero => rfl
    | succ n => simp only [markOldest]; split <;> simp [ih]

/-! ## The bounds -/

theorem State.reserved_eq (s : State) : s.reserved = s.writing.isSome := by
  unfold State.reserved State.writing
  split <;> simp_all

/-- The list with its reservation, and the starvation counter, are within their bounds. -/
def State.Fits (s : State) : Prop :=
  s.journal.length + (if s.writing.isSome then 1 else 0) ≤ 32 ∧ s.ds.starvation ≤ 4

theorem State.Fits.of_le {s t : State} (h : s.Fits) (j : t.journal.length ≤ s.journal.length)
    (w : t.writing = s.writing) (n : t.ds.starvation = s.ds.starvation) : t.Fits := by
  obtain ⟨slots, guard⟩ := h
  exact ⟨by rw [w]; omega, by omega⟩

theorem State.Fits.of_closed {s t : State} (h : s.Fits) (j : t.journal.length ≤ s.journal.length)
    (w : t.writing = none) (n : t.ds.starvation = s.ds.starvation) : t.Fits := by
  obtain ⟨slots, guard⟩ := h
  exact ⟨by rw [w]; simp only [Option.isSome_none, Bool.false_eq_true, if_false]; omega, by omega⟩

theorem writing_of_not_write {s : State} (h : ∀ w, s.up.phase ≠ .write w) : s.writing = none := by
  cases hp : s.up.phase with
  | write w => exact absurd hp (h w)
  | _ => simp [State.writing, hp]

theorem Effect.fits {Q : Prop} {s t : State} (e : Effect Q s t) (h : s.Fits) : t.Fits := by
  cases e with
  | alike k =>
    obtain ⟨-, -, -, -, -, -, journal, writing, -, -, starvation⟩ := k
    exact h.of_le (by rw [journal]) writing starvation
  | granted n k => exact ⟨h.1, k.elim id fun same => same ▸ h.2⟩
  | slotChanged m g => exact h.of_le (by simp [State.updateSlotEntry]) rfl rfl
  | selected => exact h.of_le (by simp) rfl rfl
  | exhausted m => exact h.of_le (by simp) rfl rfl
  | removed p => exact h.of_le (List.length_filter_le _ _) rfl rfl
  | marked => exact h.of_le (by simp) rfl rfl
  | landed w l hw hl =>
    obtain ⟨slots, guard⟩ := h
    have full : s.journal.length + 1 ≤ 32 := by simpa [State.writing, hw] using slots
    have joined := State.handOver_length s l
    exact ⟨by simp [State.writing]; omega, by simpa using guard⟩
  | phaseLeft u hl hu => exact h.of_closed le_rfl (writing_of_not_write hu) rfl
  | writeOpened u w closed hu row run room =>
    exact ⟨by simp only [State.writing, hu, Option.isSome_some, if_true]; omega, h.2⟩
  | discarded m => exact h.of_le (by simpa [State.discardMember] using List.length_filter_le _ _) rfl rfl
  | revived m =>
    exact h.of_le (by simpa [State.retryMember] using mergeSamePage_length _ _) rfl rfl
  | halted =>
    exact h.of_le (by simpa [State.returnToPending] using mergeSamePage_length _ (s.journal.map _))
      rfl rfl
  | restarted _ hp hr hl hs hj hb ho =>
    exact ⟨by simp [hj.1, hj.2], by omega⟩
  | _ => exact h

/-- A reset leaves no entry and no open write, and its release changes neither. -/
theorem exec_hardReset_fits {c : Instr} {s t : State} (hc : isHardReset c = true) (hs : s.Fits)
    (h : exec c s = .next t) : t.Fits := by
  cases c with
  | powerOnReset => cases h; exact ⟨Nat.zero_le _, Nat.zero_le _⟩
  | resetLineAsserted =>
    cases h; unfold State.resetPart; dsimp only
    split <;> exact ⟨Nat.zero_le _, Nat.zero_le _⟩
  | resetRelease p =>
    simp only [exec, execResetRelease] at h
    split at h <;> cases h <;> exact hs
  | _ => cases hc

theorem step_fits {s t : State} (hs : s.Fits) (h : step s = .next t) : t.Fits := by
  unfold step at h
  split at h
  · cases h; unfold State.tick; split <;> exact hs
  · rename_i c rest _
    by_cases hc : isHardReset c = true
    · exact exec_hardReset_fits (s := { s with pending := rest }) hc hs h
    · exact exec_keeps (fun _ _ _ e => e.fits) (fun _ k => k) (by simpa using hc)
        (s := { s with pending := rest }) hs h

/-- Settles O5: each effect keeps the list and its reservation within the 32 slots, and every record written
keeps the ring within its 16. -/
theorem boundsKept : Obligations.BoundsKept := by
  intro s t bounded h
  have fits : s.Fits := ⟨by simpa [State.reserved_eq] using bounded.slots, bounded.guard⟩
  obtain ⟨slots, guard⟩ := step_fits fits h
  exact {
    slots := by simpa [State.reserved_eq] using slots
    ring := step_keeps_log (P := fun l => l.length ≤ 16) (Nat.zero_le _)
      (fun _ _ _ => pushRecord_length) (fun l k => by rwa [markOldest_length]) bounded.ring h
    guard := guard }

end Sys2Proof.Machine
end

section
/-! The agreement of HELD entries with HELD members (R22), the quiesce timer (R174), and the one PENDING entry
for a page of a loose member (R11): each effect keeps them (O6, O7), and the reset state meets every invariant
(O9). -/

namespace Sys2Proof.Machine

/-! ## The same-page merge (R16, R24) -/

theorem modify_eq_append {α : Type} {l : List α} {i : Nat} {x : α} (h : l[i]? = some x)
    (f : α → α) : l.modify i f = l.take i ++ f x :: l.drop (i + 1) := by
  obtain ⟨hi, rfl⟩ := List.getElem?_eq_some_iff.mp h
  rw [List.modify_eq_take_cons_drop hi]

/-- One step of the merge: the entry joins at the tail, or goes into the first entry that is of its member
and page and is picked too. -/
theorem joinMerged_cases (sel : Entry → Bool) (done : List Entry) (e : Entry) :
    (joinMerged sel done e = done ++ [e] ∧
      (sel e = true → ∀ o ∈ done, sel o = true → ¬(o.member = e.member ∧ o.page = e.page))) ∨
    ∃ before o after, done = before ++ o :: after ∧
      joinMerged sel done e = before ++ o.mergeOver e :: after ∧ sel e = true ∧ sel o = true ∧
        o.member = e.member ∧ o.page = e.page := by
  unfold joinMerged
  split
  · rename_i picked
    split
    · rename_i i hi
      rw [List.findIdx?_eq_some_iff_getElem] at hi
      obtain ⟨inside, match_, -⟩ := hi
      simp only [Bool.and_eq_true, beq_iff_eq] at match_
      obtain ⟨⟨also, member⟩, page⟩ := match_
      exact .inr ⟨done.take i, done[i], done.drop (i + 1),
        by rw [← List.drop_eq_getElem_cons, List.take_append_drop],
        modify_eq_append (List.getElem?_eq_getElem inside) _, picked, also, member, page⟩
    · rename_i none_
      refine .inl ⟨rfl, fun _ o ho also same => ?_⟩
      have := List.findIdx?_eq_none_iff.mp none_ o ho
      simp [also, same.1, same.2] at this
  · rename_i skipped
    exact .inl ⟨rfl, fun picked => absurd picked skipped⟩

/-- What holds of no entry and is kept by each step of a merge holds of the merged list. -/
theorem mergeSamePage_induction {P : List Entry → List Entry → Prop} (sel : Entry → Bool)
    (l : List Entry) (empty : P [] [])
    (join : ∀ seen done e, e ∈ l → P seen done → P (seen ++ [e]) (joinMerged sel done e)) :
    P l (mergeSamePage sel l) := by
  have general : ∀ rest seen done, (∀ e ∈ rest, e ∈ l) → P seen done →
      P (seen ++ rest) (rest.foldl (joinMerged sel) done) := by
    intro rest
    induction rest with
    | nil => intro seen done _ h; simpa using h
    | cons e rest ih =>
      intro seen done sub h
      have next := ih (seen ++ [e]) _ (fun x hx => sub x (List.mem_cons_of_mem e hx))
        (join seen done e (sub e List.mem_cons_self) h)
      simpa using next
  exact general l [] [] (fun _ h => h) empty

/-- Every entry of a merged list has the member, page and state of an entry that went in. -/
theorem mem_mergeSamePage {sel : Entry → Bool} {l : List Entry} {e : Entry}
    (h : e ∈ mergeSamePage sel l) :
    ∃ o ∈ l, o.member = e.member ∧ o.page = e.page ∧ o.state = e.state := by
  refine mergeSamePage_induction (P := fun _ done => ∀ e ∈ done,
    ∃ o ∈ l, o.member = e.member ∧ o.page = e.page ∧ o.state = e.state) sel l nofun ?_ e h
  intro _ done x hx known y hy
  obtain ⟨joined, -⟩ | ⟨before, o, after, rfl, joined, -⟩ := joinMerged_cases sel done x <;>
    rw [joined] at hy
  · rcases List.mem_append.mp hy with old | new
    · exact known y old
    · rw [List.mem_singleton.mp new]; exact ⟨x, hx, rfl, rfl, rfl⟩
  · rcases List.mem_append.mp hy with old | old
    · exact known y (by simp [old])
    · rcases List.mem_cons.mp old with rfl | old
      · exact known o (by simp)
      · exact known y (by simp [old])

/-- The merge keeps at most one picked entry for a page of a member. -/
theorem mergeSamePage_pairwise {sel : Entry → Bool} (stable : ∀ o e, sel (o.mergeOver e) = sel o)
    (l : List Entry) :
    (mergeSamePage sel l).Pairwise fun a b =>
      ¬(sel a = true ∧ sel b = true ∧ a.member = b.member ∧ a.page = b.page) := by
  refine mergeSamePage_induction (P := fun _ done => done.Pairwise fun a b =>
    ¬(sel a = true ∧ sel b = true ∧ a.member = b.member ∧ a.page = b.page)) sel l .nil ?_
  intro _ done x _ apart
  obtain ⟨joined, fresh⟩ | ⟨before, o, after, rfl, joined, -⟩ := joinMerged_cases sel done x <;>
    rw [joined]
  · refine List.pairwise_append.mpr ⟨apart, List.pairwise_singleton _ _, fun a ha b hb same => ?_⟩
    obtain ⟨picked, picked', member, page⟩ := List.mem_singleton.mp hb ▸ same
    exact fresh picked' a ha picked ⟨member, page⟩
  · obtain ⟨front, back, between⟩ := List.pairwise_append.mp apart
    obtain ⟨first, tail⟩ := List.pairwise_cons.mp back
    refine List.pairwise_append.mpr ⟨front, List.pairwise_cons.mpr ⟨fun b hb => ?_, tail⟩,
      fun a ha b hb => ?_⟩
    · rintro ⟨picked, same⟩
      exact first b hb ⟨stable o x ▸ picked, same⟩
    · rcases List.mem_cons.mp hb with rfl | later
      · rintro ⟨picked, also, same⟩
        exact between a ha o List.mem_cons_self ⟨picked, stable o x ▸ also, same⟩
      · exact between a ha b (List.mem_cons_of_mem o later)

/-- The entries that a merge does not pick stay, in their order. -/
theorem filter_mergeSamePage {sel : Entry → Bool} (stable : ∀ o e, sel (o.mergeOver e) = sel o)
    (l : List Entry) :
    ((mergeSamePage sel l).filter fun e => !sel e) = l.filter fun e => !sel e := by
  refine mergeSamePage_induction (P := fun seen done =>
    (done.filter fun e => !sel e) = seen.filter fun e => !sel e) sel l rfl ?_
  intro seen done x _ same
  obtain ⟨joined, -⟩ | ⟨before, o, after, rfl, joined, picked, also, -⟩ :=
    joinMerged_cases sel done x <;> rw [joined]
  · simp [List.filter_append, same]
  · simp only [List.filter_append, ← same, List.filter_cons, stable, also, picked]
    simp

/-! ## Entries and members (R17, R22) -/

/-- State.HeldRight but for the quiesce timer, which follows at the end of a command. -/
structure State.HeldCore (s : State) : Prop where
  rows : ∀ e ∈ s.journal, e.member.val < s.members.length
  held : ∀ e ∈ s.journal, e.isHeld = (s.memberState e.member == .held)
  place : s.journal ≠ [] → s.os.journaling = true
  writeRow : ∀ m, s.writing = some m → m.val < s.members.length
  writePlace : s.writing.isSome = true → s.os.journaling = true
  landing : ∀ l, s.landing = some l → s.writing = some l.member
  starting : s.os.StartRight

theorem State.HeldRight.core {s : State} (h : s.HeldRight) : s.HeldCore where
  rows := h.rows
  held := h.held
  place := h.place
  writeRow := h.writeRow
  writePlace := h.writePlace
  landing := h.landing
  starting := h.starting

theorem State.HeldCore.right {s : State} (h : s.HeldCore) (q : s.QuiesceRight) : s.HeldRight where
  rows := h.rows
  held := h.held
  place := h.place
  writeRow := h.writeRow
  writePlace := h.writePlace
  landing := h.landing
  starting := h.starting
  quiesce := q

/-- While the start sequence runs the journal is empty and no write is open (R27, R99). -/
theorem State.HeldCore.still {s : State} (h : s.HeldCore) (k : s.os.start.isSome = true) :
    s.Still := by
  have off : ¬s.os.journaling = true := by
    rcases h.starting k with starting | ⟨halt, ret⟩ <;> simp [Operating.journaling, *]
  refine ⟨by_contra fun c => off (h.place c), ?_⟩
  cases hw : s.writing with
  | none => rfl
  | some m => exact absurd (h.writePlace (by rw [hw]; rfl)) off

/-- A part that is still meets the agreement, whatever its table. -/
theorem State.HeldCore.of_still {s : State} (h : s.Still) (l : s.landing = none)
    (o : s.os.StartRight) : s.HeldCore where
  rows := by rw [h.1]; nofun
  held := by rw [h.1]; nofun
  place := fun k => absurd h.1 k
  writeRow := by rw [h.2]; nofun
  writePlace := by rw [h.2]; nofun
  landing := by rw [l]; nofun
  starting := o

theorem State.HeldCore.no_landing {s : State} (h : s.HeldCore) (k : s.writing = none) :
    s.landing = none := by
  cases hl : s.landing with
  | none => rfl
  | some l => have := h.landing l hl; rw [k] at this; cases this

/-- The agreement carries over to a state whose entries each have the member and the HELD state of one of
the entries before. -/
theorem State.HeldCore.of_entries {s t : State} (h : s.HeldCore)
    (entries : ∀ e ∈ t.journal, ∃ o ∈ s.journal, o.member = e.member ∧ o.isHeld = e.isHeld)
    (table : t.members = s.members) (os : t.os = s.os) (writing : t.writing = s.writing)
    (landing : t.landing = s.landing) : t.HeldCore where
  rows := by
    intro e he
    obtain ⟨o, ho, member, -⟩ := entries e he
    rw [table, ← member]; exact h.rows o ho
  held := by
    intro e he
    obtain ⟨o, ho, member, held⟩ := entries e he
    rw [State.memberState_congr table, ← member, ← held]; exact h.held o ho
  place := by
    intro some_
    rw [os]
    refine h.place fun empty => ?_
    obtain ⟨e, he⟩ := List.exists_mem_of_ne_nil _ some_
    obtain ⟨o, ho, -⟩ := entries e he
    rw [empty] at ho; cases ho
  writeRow := by rw [writing, table]; exact h.writeRow
  writePlace := by rw [writing, os]; exact h.writePlace
  landing := by rw [landing, writing]; exact h.landing
  starting := os ▸ h.starting

/-- The agreement carries over to another table with a row for each before, where no member becomes HELD or
stops being HELD that has an entry. -/
theorem State.HeldCore.of_table {s t : State} (h : s.HeldCore) (journal : t.journal = s.journal)
    (rows : t.members.length = s.members.length)
    (held : ∀ e ∈ s.journal, (t.memberState e.member = .held ↔ s.memberState e.member = .held))
    (os : t.os = s.os) (writing : t.writing = s.writing) (landing : t.landing = s.landing) :
    t.HeldCore where
  rows := by rw [journal, rows]; exact h.rows
  held := by
    rw [journal]
    intro e he
    rw [h.held e he, Bool.eq_iff_iff, beq_iff_eq, beq_iff_eq]; exact (held e he).symm
  place := by rw [journal, os]; exact h.place
  writeRow := by rw [writing, rows]; exact h.writeRow
  writePlace := by rw [writing, os]; exact h.writePlace
  landing := by rw [landing, writing]; exact h.landing
  starting := os ▸ h.starting

theorem State.HeldCore.not_held {s : State} (h : s.HeldCore) {e : Entry} (he : e ∈ s.journal)
    (k : e.isHeld = false) : s.memberState e.member ≠ .held := by
  have := h.held e he
  rw [k] at this
  intro c; simp [c] at this

theorem Entry.isHeld_of_isInFlight {e : Entry} (h : e.isInFlight = true) : e.isHeld = false := by
  cases hs : e.state <;> simp_all [Entry.isInFlight, Entry.flight?, Entry.isHeld]

theorem Entry.isHeld_of_isPending {e : Entry} (h : e.isPending = true) : e.isHeld = false := by
  simp_all [Entry.isPending, Entry.isHeld]

theorem Entry.isPending_of_isInFlight {e : Entry} (h : e.isInFlight = true) :
    e.isPending = false := by
  cases hs : e.state <;> simp_all [Entry.isInFlight, Entry.flight?, Entry.isPending]

/-- The entries of a hand-over are the old ones, one of them with another image and deadline, or one more of
the landing's member, HELD where the member is (R13 to R15). -/
theorem State.mem_handOver {s : State} {l : Landing} {e : Entry} (h : e ∈ (s.handOver l).journal) :
    (∃ o ∈ s.journal, o.member = e.member ∧ o.state = e.state) ∨
      e.member = l.member ∧ e.isHeld = (s.memberState l.member == .held) := by
  unfold State.handOver at h
  split at h
  · rename_i i _
    obtain ⟨j, hj⟩ := List.getElem?_of_mem h
    rw [State.mergeInto_journal, List.getElem?_modify] at hj
    obtain ⟨o, ho, rfl⟩ := Option.map_eq_some_iff.mp hj
    exact .inl ⟨o, List.mem_of_getElem? ho, by split <;> simp⟩
  · rw [State.allocate_journal] at h
    rcases List.mem_append.mp h with old | new
    · exact .inl ⟨e, old, rfl, rfl⟩
    · rw [List.mem_singleton.mp new]
      refine .inr ⟨rfl, ?_⟩
      by_cases held : s.memberState l.member = .held <;> simp [Entry.isHeld, held]

theorem State.row_of_memberState {s : State} {m : MemberIx} (h : s.memberState m ≠ .unset) :
    m.val < s.members.length := by
  by_contra c
  simp [State.memberState, List.getElem?_eq_none (Nat.le_of_not_lt c)] at h

/-! ## The return of the entries to PENDING (R52) -/

@[simp] theorem State.info_returnToPending (s : State) (m : MemberIx) :
    s.returnToPending.info m = s.info m := by
  simp only [State.info, State.returnToPending, List.getElem?_map]
  cases s.members[m.val]? <;> simp; split <;> rfl

/-- A member in CYCLE is ONLINE after it (R86). -/
theorem State.memberState_returnToPending (s : State) (m : MemberIx) :
    s.returnToPending.memberState m =
      if s.memberState m = .cycle then .online else s.memberState m := by
  simp only [State.memberState, State.returnToPending, List.getElem?_map]
  rcases Option.eq_none_or_eq_some s.members[m.val]? with none_ | ⟨row, hrow⟩
  · simp [none_]
  · by_cases cycle : row.state = .cycle <;> simp [hrow, cycle]

/-- Every entry is one of those before, which is PENDING where it was in flight. -/
theorem State.mem_returnToPending {s : State} {e : Entry} (h : e ∈ s.returnToPending.journal) :
    ∃ o ∈ s.journal, o.member = e.member ∧ o.page = e.page ∧
      e.state = (if o.isInFlight then .pending else o.state) := by
  obtain ⟨x, hx, member, page, state⟩ := mem_mergeSamePage h
  obtain ⟨o, ho, rfl⟩ := List.mem_map.mp hx
  refine ⟨o, ho, ?_⟩
  rw [← member, ← page, ← state]
  split <;> exact ⟨rfl, rfl, rfl⟩

/-! ## The effects keep the agreement -/

theorem Effect.heldCore {Q : Prop} {s t : State} (e : Effect Q s t) (q : Q) (h : s.HeldCore) :
    t.HeldCore := by
  cases e with
  | alike k =>
    obtain ⟨-, -, part, ret, start, table, journal, writing, landing, -, -⟩ := k
    have places : t.os.journaling = s.os.journaling := by
      simp only [Operating.journaling, part, ret]
    exact {
      rows := by rw [journal, table]; exact h.rows
      held := by rw [journal]; intro e he; rw [State.memberState_congr table]; exact h.held e he
      place := by rw [journal, places]; exact h.place
      writeRow := by rw [writing, table]; exact h.writeRow
      writePlace := by rw [writing, places]; exact h.writePlace
      landing := by rw [landing, writing]; exact h.landing
      starting := by
        intro k; rw [part, ret]; exact h.starting (start ▸ k) }
  | recorded | recordsRead | recordsCleared | granted => exact { h with }
  | slotChanged m g keeps =>
    refine h.of_entries (fun e he => ?_) rfl rfl rfl rfl
    obtain ⟨o, ho, rfl⟩ := List.mem_map.mp he
    refine ⟨o, ho, ?_⟩
    split
    · split
      · rename_i f hf
        have flying : o.isInFlight = true := by rw [Entry.isInFlight, hf]; rfl
        obtain ⟨flies, member⟩ := keeps f o flying
        exact ⟨member.symm, by rw [Entry.isHeld_of_isInFlight flying, Entry.isHeld_of_isInFlight flies]⟩
      · exact ⟨rfl, rfl⟩
    · exact ⟨rfl, rfl⟩
  | selected i o f ho pending =>
    refine h.of_entries (fun e he => ?_) rfl rfl rfl rfl
    rcases List.mem_or_eq_of_mem_set he with old | rfl
    · exact ⟨e, old, rfl, rfl⟩
    · exact ⟨o, List.mem_of_getElem? ho, rfl, Entry.isHeld_of_isPending pending⟩
  | memberMoved m st other free =>
    refine h.of_table rfl (by simp) (fun e he => ?_) rfl rfl rfl
    by_cases same : e.member = m
    · have row := h.rows e he
      subst same
      rw [State.memberState_setMember row]
      refine iff_of_false other ?_
      rcases free with free | begun | ⟨o, ho, member, notHeld⟩
      · exact free
      · rw [(h.still begun).1] at he; cases he
      · exact member ▸ h.not_held ho notHeld
    · rw [State.memberState_setMember_ne same]
  | pointed m p => exact h.of_table rfl (by simp) (fun e he => by simp) rfl rfl rfl
  | exhausted m some_ =>
    obtain ⟨o, ho, rfl⟩ := some_
    have row := h.rows o ho
    exact {
      rows := by
        intro e he
        obtain ⟨x, hx, rfl⟩ := List.mem_map.mp he
        have := h.rows x hx
        split <;> simpa using this
      held := by
        intro e he
        obtain ⟨x, hx, rfl⟩ := List.mem_map.mp he
        by_cases same : x.member = o.member
        · simp only [same, if_true, Entry.isHeld]
          rw [State.memberState_setMember (by simpa using row)]; rfl
        · simp only [same, if_false]
          rw [State.memberState_setMember_ne same]; exact h.held x hx
      place := fun _ => h.place (List.ne_nil_of_mem ho)
      writeRow := by intro m hm; simpa using h.writeRow m hm
      writePlace := h.writePlace
      landing := h.landing
      starting := h.starting }
  | removed p =>
    exact h.of_entries (fun e he => ⟨e, List.mem_of_mem_filter he, rfl, rfl⟩) rfl rfl rfl rfl
  | marked =>
    refine h.of_entries (fun e he => ?_) rfl rfl rfl rfl
    obtain ⟨o, ho, rfl⟩ := List.mem_map.mp he
    exact ⟨o, ho, rfl, rfl⟩
  | landed w l hw hl =>
    have writing : s.writing = some l.member := h.landing l hl
    have row := h.writeRow _ writing
    have placed := h.writePlace (by rw [writing]; rfl)
    exact {
      rows := by
        intro e he
        rcases State.mem_handOver (l := l) (by simpa using he) with ⟨o, ho, member, -⟩ | ⟨member, -⟩
        · simpa [← member] using h.rows o ho
        · simpa [member] using row
      held := by
        intro e he
        rw [State.memberState_congr (s := s) (by simp)]
        rcases State.mem_handOver (l := l) (by simpa using he) with ⟨o, ho, member, state⟩ | ⟨member, held⟩
        · rw [← member, ← h.held o ho, Entry.isHeld, Entry.isHeld, state]
        · rw [member, held]
      place := fun _ => by simpa using placed
      writeRow := nofun
      writePlace := nofun
      landing := nofun
      starting := by simpa using h.starting }
  | landingChanged l member =>
    refine { h with landing := fun b hb => ?_ }
    rcases member b hb with writing | ⟨old, hold, same⟩
    · exact writing
    · exact same ▸ h.landing old hold
  | phaseLeft u noLanding left =>
    have closed : ({ s with up := u } : State).writing = none := writing_of_not_write left
    exact { h with
      writeRow := by rw [closed]; nofun
      writePlace := by rw [closed]; nofun
      landing := by intro l hl; rw [noLanding] at hl; cases hl }
  | writeOpened u w closed hu row run room =>
    have writing : ({ s with up := u } : State).writing = some w.member := by
      simp [State.writing, hu]
    exact { h with
      writeRow := by intro m hm; cases writing.symm.trans hm; exact row
      writePlace := fun _ => by simp [Operating.journaling, run]
      landing := by intro l hl; rw [h.no_landing closed] at hl; cases hl }
  | operated o places starts =>
    have kept : s.os.journaling = true → ¬s.Still → o.journaling = true := fun j k =>
      (places q j).resolve_right k
    exact { h with
      place := fun k => kept (h.place k) fun still => k still.1
      writePlace := fun k => kept (h.writePlace k) fun still => by
        have none_ : s.writing = none := still.2
        have some_ : s.writing.isSome = true := k
        rw [none_] at some_; cases some_
      starting := starts q h.starting }
  | tableChanged l why =>
    have still : s.Still := why.elim h.still id
    exact .of_still still (h.no_landing still.2) h.starting
  | discarded m held =>
    have row := State.row_of_memberState (s := s) (m := m) (by rw [held]; nofun)
    refine State.HeldCore.of_entries (s := { s with journal := s.journal.filter fun e => e.member != m }.setMember m .online)
      ?_ (fun e he => ⟨e, he, rfl, rfl⟩) rfl rfl rfl rfl
    refine State.HeldCore.of_table (s := { s with journal := s.journal.filter fun e => e.member != m })
      (h.of_entries (fun e he => ⟨e, List.mem_of_mem_filter he, rfl, rfl⟩) rfl rfl rfl rfl)
      rfl (by simp) (fun e he => ?_) rfl rfl rfl
    have other : e.member ≠ m := by simpa using (List.mem_filter.mp he).2
    rw [State.memberState_setMember_ne other]
  | revived m held =>
    have row := State.row_of_memberState (s := s) (m := m) (by rw [held]; nofun)
    have entries : ∀ e ∈ (s.retryMember m).journal, ∃ o ∈ s.journal, o.member = e.member ∧
        (e.member = m → e.isHeld = false) ∧ (e.member ≠ m → o.isHeld = e.isHeld) := by
      intro e he
      obtain ⟨x, hx, rfl⟩ := List.mem_map.mp he
      obtain ⟨o, ho, member, -, state⟩ := mem_mergeSamePage hx
      refine ⟨o, ho, ?_⟩
      by_cases same : x.member = m
      · simp [Entry.revived, same, member, Entry.isHeld]
      · simp [Entry.revived, same, member, Entry.isHeld, state]
    exact {
      rows := by
        intro e he
        obtain ⟨o, ho, member, -⟩ := entries e he
        simpa [State.retryMember, ← member] using h.rows o ho
      held := by
        intro e he
        obtain ⟨o, ho, member, revived, kept⟩ := entries e he
        have table : (s.retryMember m).memberState e.member = (s.setMember m .online).memberState e.member := rfl
        rw [table]
        by_cases same : e.member = m
        · rw [revived same, same, State.memberState_setMember row]; rfl
        · rw [← kept same, h.held o ho, member, State.memberState_setMember_ne same]
      place := by
        intro some_
        obtain ⟨e, he⟩ := List.exists_mem_of_ne_nil _ some_
        obtain ⟨o, ho, -⟩ := entries e he
        exact h.place (List.ne_nil_of_mem ho)
      writeRow := by intro k hk; simpa [State.retryMember] using h.writeRow k hk
      writePlace := h.writePlace
      landing := h.landing
      starting := h.starting }
  | halted =>
    have entries : ({ s with journal := s.returnToPending.journal } : State).HeldCore := by
      refine h.of_entries (fun e he => ?_) rfl rfl rfl rfl
      obtain ⟨o, ho, member, -, state⟩ := State.mem_returnToPending he
      refine ⟨o, ho, member, ?_⟩
      by_cases flying : o.isInFlight = true
      · rw [Entry.isHeld_of_isInFlight flying, Entry.isHeld, state, if_pos flying]; rfl
      · rw [Entry.isHeld, Entry.isHeld, state, if_neg flying]
    refine entries.of_table rfl (by simp [State.returnToPending]) (fun e he => ?_) rfl rfl rfl
    rw [State.memberState_returnToPending]
    change _ ↔ s.memberState e.member = .held
    split <;> simp_all
  | restarted _ _ _ _ _ still noLanding starts => exact .of_still still noLanding starts

/-! ## The quiesce timer -/

theorem Effect.keeps_running {Q : Prop} {s t : State} (e : Effect Q s t) (h : s.inReset = false) :
    t.inReset = false := by
  cases e with
  | alike k => exact k.2.1.trans h
  | restarted _ _ running => exact running
  | landed w l => simpa using h
  | discarded m => simpa [State.discardMember] using h
  | revived m => simpa [State.retryMember] using h
  | halted => simpa [State.returnToPending] using h
  | _ => exact h

/-- After a command that is taken the timer runs exactly while the part is quiet (R174). -/
theorem State.settle_quiesceRight {s : State} (h : s.inReset = false) : s.settle.QuiesceRight where
  timer := by
    have quiet : s.settle.quiet = s.quiet := rfl
    rw [quiet, State.settle_os_quiesce]
    cases s.quiet <;> rfl
  reset := fun k => by rw [State.settle_inReset, h] at k; cases k

theorem State.not_quiet_of_starting {s : State} (h : s.os.part = .starting) : s.quiet = false := by
  simp [State.quiet, h]

theorem State.not_quiet_of_clearing {s : State} (h : s.ds.ctl = .clearing) : s.quiet = false := by
  have other : (Controller.clearing == Controller.free) = false := rfl
  simp [State.quiet, h, other]

theorem exec_hardReset_quiesceRight {c : Instr} {s t : State} (hc : isHardReset c = true)
    (hs : s.QuiesceRight) (h : exec c s = .next t) : t.QuiesceRight := by
  cases c with
  | powerOnReset => cases h; exact ⟨rfl, fun _ => rfl⟩
  | resetLineAsserted =>
    cases h; unfold State.resetPart; dsimp only
    split <;> exact ⟨rfl, fun _ => rfl⟩
  | resetRelease p =>
    simp only [exec, execResetRelease] at h
    split at h
    · rename_i held
      cases h
      refine ⟨?_, nofun⟩
      rw [State.not_quiet_of_clearing rfl, ← State.not_quiet_of_starting (hs.reset held)]
      exact hs.timer
    · cases h; exact hs
  | _ => cases hc

theorem exec_quiesceRight {c : Instr} {s t : State} (hs : s.QuiesceRight)
    (h : exec c s = .next t) : t.QuiesceRight := by
  by_cases hc : isHardReset c = true
  · exact exec_hardReset_quiesceRight hc hs h
  · obtain rfl | ⟨u, running, hu, rfl⟩ := exec_taken c s (by simpa using hc) t h
    · exact hs
    · exact State.settle_quiesceRight (hu.keeps (P := fun u => u.inReset = false)
        (fun _ _ e => e.keeps_running) running)

theorem exec_hardReset_heldCore {c : Instr} {s t : State} (hc : isHardReset c = true)
    (hs : s.HeldRight) (h : exec c s = .next t) : t.HeldCore := by
  cases c with
  | powerOnReset => cases h; exact .of_still ⟨rfl, rfl⟩ rfl fun _ => .inl rfl
  | resetLineAsserted =>
    cases h; unfold State.resetPart; dsimp only
    split <;> exact .of_still ⟨rfl, rfl⟩ rfl fun _ => .inl rfl
  | resetRelease p =>
    simp only [exec, execResetRelease] at h
    split at h
    · rename_i held
      cases h
      exact { hs.core with starting := fun _ => .inl (hs.quiesce.reset held) }
    · cases h; exact hs.core
  | _ => cases hc

theorem exec_heldRight {c : Instr} {s t : State} (hs : s.HeldRight) (h : exec c s = .next t) :
    t.HeldRight := by
  refine State.HeldCore.right ?_ (exec_quiesceRight hs.quiesce h)
  by_cases hc : isHardReset c = true
  · exact exec_hardReset_heldCore hc hs h
  · obtain rfl | ⟨u, running, hu, rfl⟩ := exec_taken c s (by simpa using hc) t h
    · exact hs.core
    · have core := hu.keeps (P := State.HeldCore) (fun _ _ e => e.heldCore hs.quiesce) hs.core
      exact { core with }

/-- Settles O6: each effect keeps the agreement of entries and members, and the timer follows at the end of
each command. -/
theorem heldAgreementKept : Obligations.HeldAgreementKept := by
  intro s t h
  unfold step at h
  split at h
  · cases h
    unfold State.tick
    split
    · exact ⟨id, id⟩
    · exact ⟨fun q => ⟨q.timer, q.reset⟩, fun r => { r with quiesce := ⟨r.quiesce.timer, r.quiesce.reset⟩ }⟩
  · rename_i c rest _
    exact ⟨fun q => exec_quiesceRight (s := { s with pending := rest }) ⟨q.timer, q.reset⟩ h,
      fun r => exec_heldRight (s := { s with pending := rest })
        { r with quiesce := ⟨r.quiesce.timer, r.quiesce.reset⟩ } h⟩

/-! ## One PENDING entry for a page (R11) -/

/-- The two entries do not both wait for one page of a loose member. -/
def State.Apart (s : State) (a b : Entry) : Prop :=
  ¬(a.member = b.member ∧ a.page = b.page ∧ (s.info a.member).strict = false ∧
    a.isPending = true ∧ b.isPending = true)

/-- Entries of which none has become PENDING, each at the member and page it had, stay apart. -/
theorem State.OnePending.map {s t : State} (h : s.OnePending) (f : Entry → Entry)
    (journal : t.journal = s.journal.map f) (table : ∀ m, t.info m = s.info m)
    (kept : ∀ e ∈ s.journal, (f e).isPending = true →
      e.isPending = true ∧ (f e).member = e.member ∧ (f e).page = e.page) : t.OnePending := by
  unfold State.OnePending
  rw [journal, List.pairwise_map]
  refine List.Pairwise.imp_of_mem (fun {a b} ha hb apart both => ?_) h
  obtain ⟨member, page, loose, pa, pb⟩ := both
  obtain ⟨pa, ma, ga⟩ := kept a ha pa
  obtain ⟨pb, mb, gb⟩ := kept b hb pb
  rw [table, ma] at loose
  exact apart ⟨by rw [← ma, ← mb, member], by rw [← ga, ← gb, page], loose, pa, pb⟩

theorem State.OnePending.sublist {s t : State} (h : s.OnePending)
    (journal : t.journal.Sublist s.journal) (table : ∀ m, t.info m = s.info m) :
    t.OnePending := by
  unfold State.OnePending
  simp only [table]
  exact List.Pairwise.sublist journal h

theorem State.OnePending.of_empty {s : State} (h : s.journal = []) : s.OnePending := by
  unfold State.OnePending; rw [h]; exact .nil

/-- Where a loose member has no merge target, none of its entries waits for the page (R11). -/
theorem State.apart_of_no_target {s : State} {m : MemberIx} {page : Nat}
    (h : s.mergeTarget m page = none) (loose : (s.info m).strict = false) {e : Entry}
    (he : e ∈ s.journal) : ¬(e.member = m ∧ e.page = page ∧ e.isPending = true) := by
  rintro ⟨member, same, pending⟩
  simp only [State.mergeTarget, loose, Bool.false_eq_true, if_false] at h
  have := List.findIdx?_eq_none_iff.mp h e he
  simp [member, same, pending] at this

theorem State.OnePending.handOver {s : State} (h : s.OnePending) (l : Landing) :
    (s.handOver l).OnePending := by
  unfold State.handOver
  split
  · rename_i i _
    have same : ∀ j (hj : j < (s.mergeInto i l).journal.length) (hj' : j < s.journal.length),
        (s.mergeInto i l).journal[j].member = s.journal[j].member ∧
          (s.mergeInto i l).journal[j].page = s.journal[j].page ∧
          (s.mergeInto i l).journal[j].isPending = s.journal[j].isPending := by
      intro j hj hj'
      simp only [State.mergeInto_journal, List.getElem_modify]
      split <;> exact ⟨rfl, rfl, rfl⟩
    refine List.pairwise_iff_getElem.mpr fun a b ha hb lt both => ?_
    have ha' : a < s.journal.length := by simpa using ha
    have hb' : b < s.journal.length := by simpa using hb
    obtain ⟨ma, ga, pa⟩ := same a ha ha'
    obtain ⟨mb, gb, pb⟩ := same b hb hb'
    rw [ma, ga, pa, mb, gb, pb] at both
    exact List.pairwise_iff_getElem.mp h a b ha' hb' lt both
  · rename_i none_
    unfold State.OnePending
    rw [State.allocate_journal]
    refine List.pairwise_append.mpr ⟨h, List.pairwise_singleton _ _, fun a ha b hb both => ?_⟩
    rw [List.mem_singleton.mp hb] at both
    obtain ⟨member, page, loose, pending, -⟩ := both
    have loose : (s.info l.member).strict = false := by rw [← loose, member]; rfl
    exact State.apart_of_no_target none_ loose ha ⟨member, page, pending⟩

theorem State.OnePending.returnToPending (s : State) : s.returnToPending.OnePending := by
  have apart := mergeSamePage_pairwise (sel := fun e => e.isPending && !(s.info e.member).strict)
    (fun _ _ => rfl) (s.journal.map fun e => if e.isInFlight then { e with state := .pending } else e)
  refine List.Pairwise.imp (fun {a b} never both => ?_) apart
  obtain ⟨member, page, loose, pa, pb⟩ := both
  rw [State.info_returnToPending] at loose
  exact never ⟨by simp [pa, loose], by simp [pb, ← member, loose], member, page⟩

@[simp] theorem Entry.revived_member (m : MemberIx) (e : Entry) :
    (e.revived m).member = e.member := by
  unfold Entry.revived; split <;> rfl

@[simp] theorem Entry.revived_page (m : MemberIx) (e : Entry) : (e.revived m).page = e.page := by
  unfold Entry.revived; split <;> rfl

theorem Entry.revived_of_ne {m : MemberIx} {e : Entry} (h : e.member ≠ m) : e.revived m = e :=
  if_neg h

/-- MEMBER_RETRY leaves one entry for a page of the loose member, and the entries of the others (R24). -/
theorem State.OnePending.retryMember {s : State} (h : s.OnePending) (m : MemberIx) :
    (s.retryMember m).OnePending := by
  have merged := mergeSamePage_pairwise (sel := fun e => e.member == m && !(s.info m).strict)
    (fun _ _ => rfl) s.journal
  have others : (mergeSamePage (fun e => e.member == m && !(s.info m).strict) s.journal).Pairwise
      fun a b => (!(a.member == m && !(s.info m).strict)) = true →
        (!(b.member == m && !(s.info m).strict)) = true → s.Apart a b := by
    rw [← List.pairwise_filter, filter_mergeSamePage (fun _ _ => rfl)]
    exact List.Pairwise.sublist List.filter_sublist h
  have journal : (s.retryMember m).journal =
      (mergeSamePage (fun e => e.member == m && !(s.info m).strict) s.journal).map
        (Entry.revived m) := rfl
  unfold State.OnePending
  rw [journal, List.pairwise_map]
  refine List.Pairwise.imp₂ (fun a b one other both => ?_) merged others
  obtain ⟨member, page, loose, pa, pb⟩ := both
  have table : ∀ k, (s.retryMember m).info k = s.info k := fun k => s.info_setMember m k .online
  rw [Entry.revived_member, Entry.revived_member] at member
  rw [Entry.revived_page, Entry.revived_page] at page
  rw [Entry.revived_member, table] at loose
  by_cases ma : a.member = m
  · rw [ma] at loose
    exact one ⟨by simp [ma, loose], by simp [← member, ma, loose], member, page⟩
  · have mb : b.member ≠ m := member ▸ ma
    rw [Entry.revived_of_ne ma] at pa
    rw [Entry.revived_of_ne mb] at pb
    exact other (by simp [ma]) (by simp [mb]) ⟨member, page, loose, pa, pb⟩

theorem Effect.onePending {Q : Prop} {s t : State} (e : Effect Q s t) (core : s.HeldCore)
    (h : s.OnePending) : t.OnePending := by
  cases e with
  | alike k =>
    obtain ⟨-, -, -, -, -, table, journal, -⟩ := k
    exact h.sublist (journal ▸ List.Sublist.refl _) (State.info_congr table)
  | slotChanged m g keeps =>
    refine h.map _ rfl (fun _ => rfl) fun e he pending => ?_
    split at pending
    · split at pending
      · rename_i f hf
        have flying : e.isInFlight = true := by rw [Entry.isInFlight, hf]; rfl
        rw [Entry.isPending_of_isInFlight (keeps f e flying).1] at pending; cases pending
      · rename_i other; simp_all
    · simp_all
  | selected i o f ho pending =>
    refine List.pairwise_iff_getElem.mpr fun a b ha hb lt both => ?_
    simp only [List.length_set] at ha hb
    simp only [List.getElem_set] at both
    obtain ⟨member, page, loose, pa, pb⟩ := both
    by_cases ia : i = a
    · simp [ia, Entry.isPending] at pa
    · by_cases ib : i = b
      · simp [ib, Entry.isPending] at pb
      · simp only [ia, ib, if_false] at member page loose pa pb
        exact List.pairwise_iff_getElem.mp h a b ha hb lt ⟨member, page, loose, pa, pb⟩
  | memberMoved m st => exact h.sublist (List.Sublist.refl _) (by simp)
  | pointed m p => exact h.sublist (List.Sublist.refl _) (by simp)
  | exhausted m =>
    refine h.map _ rfl (fun k => by rw [State.info_setMember]; rfl) fun e _ pending => ?_
    split at pending
    · cases pending
    · simp_all
  | removed p => exact h.sublist List.filter_sublist fun _ => rfl
  | marked => exact h.map _ rfl (fun _ => rfl) fun _ _ pending => ⟨pending, rfl, rfl⟩
  | landed w l =>
    exact (h.handOver l).sublist (by simp) (State.info_congr (by simp))
  | tableChanged l why => exact .of_empty (why.elim core.still id).1
  | discarded m => exact h.sublist List.filter_sublist fun k => s.info_setMember m k .online
  | revived m => exact h.retryMember m
  | halted => exact .returnToPending s
  | restarted _ _ _ _ _ still => exact .of_empty still.1
  | _ => exact h

/-- Settles O7: each effect keeps the entries of a page apart; under the agreement of entries and members the
table changes only where the journal is empty. -/
theorem onePendingPerPageKept : Obligations.OnePendingPerPageKept := by
  intro s t right one h
  unfold step at h
  split at h
  · cases h; unfold State.tick; split <;> exact one
  · rename_i c rest _
    by_cases hc : isHardReset c = true
    · cases c with
      | powerOnReset => cases h; exact .of_empty rfl
      | resetLineAsserted =>
        cases h; unfold State.resetPart; dsimp only
        split <;> exact .of_empty rfl
      | resetRelease p =>
        simp only [exec, execResetRelease] at h
        split at h <;> cases h <;> exact one
      | _ => cases hc
    · obtain rfl | ⟨u, -, hu, rfl⟩ := exec_taken c _ (by simpa using hc) t h
      · exact one
      · have both := hu.keeps (P := fun v => v.HeldCore ∧ v.OnePending)
          (fun _ _ e k => ⟨e.heldCore ⟨right.quiesce.timer, right.quiesce.reset⟩ k.1, e.onePending k.1 k.2⟩)
          ⟨{ right.core with }, one⟩
        exact both.2

/-- Settles O9: the reset state has no entry, no write and no record. -/
theorem resetMeetsInvariants : Obligations.ResetMeetsInvariants := by
  have quiesce : State.reset.QuiesceRight := ⟨rfl, fun _ => rfl⟩
  exact ⟨⟨by decide, by decide, by decide⟩,
    (State.HeldCore.of_still ⟨rfl, rfl⟩ rfl fun _ => .inl rfl).right quiesce, .of_empty rfl, .nil, quiesce⟩

end Sys2Proof.Machine
end

section
/-! What the lookups read off the state: the member at a bus address (O17), the merge target (O26), the overlay
(O30) and the arbiter's choice (O47). -/

namespace Sys2Proof.Machine

/-! ## The member table (R81) -/

/-- With distinct addresses the lookup is by the record's address (R79, R81). -/
theorem State.memberAt_eq_some_iff {s : State} {dev : DevAddr} {m : MemberIx}
    (distinct : s.members.Pairwise fun a b => a.info.bus ≠ b.info.bus) :
    s.memberAt dev = some m ↔ ∃ row, s.members[m.val]? = some row ∧ row.info.bus = dev := by
  refine ⟨State.memberAt_row, fun ⟨row, hrow, bus⟩ => ?_⟩
  have found : (s.memberAt dev).isSome = true :=
    List.find?_isSome.mpr ⟨m, List.mem_finRange m, by simp [hrow, bus]⟩
  obtain ⟨k, hk⟩ := Option.isSome_iff_exists.mp found
  obtain ⟨row', hrow', bus'⟩ := State.memberAt_row hk
  obtain ⟨hm, rfl⟩ := List.getElem?_eq_some_iff.mp hrow
  obtain ⟨hk', rfl⟩ := List.getElem?_eq_some_iff.mp hrow'
  have differ := List.pairwise_iff_getElem.mp distinct
  have same : k.val = m.val := by
    rcases Nat.lt_trichotomy k.val m.val with lt | eq | gt
    · exact absurd (bus'.trans bus.symm) (differ _ _ hk' hm lt)
    · exact eq
    · exact absurd (bus.trans bus'.symm) (differ _ _ hm hk' gt)
  rw [hk, Fin.ext same]

theorem State.memberAt_eq_none_iff {s : State} {dev : DevAddr} (small : s.members.length ≤ 8) :
    s.memberAt dev = none ↔ ∀ row ∈ s.members, row.info.bus ≠ dev := by
  simp only [State.memberAt, List.find?_eq_none, List.mem_finRange, true_imp_iff]
  constructor
  · intro h row hrow
    obtain ⟨i, hi, rfl⟩ := List.getElem_of_mem hrow
    simpa [hi] using h ⟨i, by omega⟩
  · intro h m
    cases hm : s.members[m.val]? with
    | none => simp
    | some row => simpa using h row (List.mem_of_getElem? hm)

/-- Settles O17: the lookup of a journaled member is the lookup of its record, its flag and its state. -/
theorem lookupFindsJournaledMembers : Obligations.LookupFindsJournaledMembers := by
  intro s dev m small distinct
  refine ⟨?_, State.memberAt_eq_some_iff distinct, State.memberAt_eq_none_iff small⟩
  rw [State.journaledAt, Option.filter_eq_some_iff, State.memberAt_eq_some_iff distinct]
  constructor
  · rintro ⟨⟨row, hrow, bus⟩, serves⟩
    refine ⟨row, hrow, bus, ?_⟩
    simpa [State.info, State.memberState, hrow, or_assoc] using serves
  · rintro ⟨row, hrow, bus, journaled, state⟩
    refine ⟨⟨row, hrow, bus⟩, ?_⟩
    simpa [State.info, State.memberState, hrow, journaled, or_assoc] using state

/-! ## The merge target (R11, R12) -/

theorem lastIdx?_eq_none_iff {p : Entry → Bool} {l : List Entry} :
    lastIdx? p l = none ↔ ∀ e ∈ l, p e = false := by
  induction l with
  | nil => simp [lastIdx?]
  | cons e rest ih =>
    cases later : lastIdx? p rest with
    | some k =>
      have some_ : ¬∀ x ∈ rest, p x = false := fun c => by rw [ih.mpr c] at later; cases later
      simpa [lastIdx?, later] using fun _ => by simpa using some_
    | none => simpa [lastIdx?, later] using fun _ => ih.mp later

theorem lastIdx?_spec {p : Entry → Bool} {l : List Entry} {i : Nat} (h : lastIdx? p l = some i) :
    ∃ e, l[i]? = some e ∧ p e = true ∧ ∀ j x, i < j → l[j]? = some x → p x = false := by
  induction l generalizing i with
  | nil => cases h
  | cons e rest ih =>
    have shifted : ∀ k (j : Nat) x, k < j → (∀ n x, k ≤ n → rest[n]? = some x → p x = false) →
        (e :: rest)[j]? = some x → p x = false := by
      intro k j x lt all hx
      obtain ⟨n, rfl⟩ : ∃ n, j = n + 1 := ⟨j - 1, by omega⟩
      exact all n x (by omega) (by simpa using hx)
    cases later : lastIdx? p rest with
    | some k =>
      obtain ⟨x, hx, px, last⟩ := ih later
      simp only [lastIdx?, later, Option.some.injEq] at h
      subst h
      exact ⟨x, by simpa using hx, px, fun j y lt => shifted (k + 1) j y lt fun n z le => last n z le⟩
    | none =>
      simp only [lastIdx?, later] at h
      split at h
      · rename_i pe
        cases h
        exact ⟨e, rfl, pe, fun j y lt => shifted 0 j y lt fun n z _ hz =>
          lastIdx?_eq_none_iff.mp later z (List.mem_of_getElem? hz)⟩
      · cases h

/-- The last position that meets a test. -/
theorem lastIdx?_eq_some_iff {p : Entry → Bool} {l : List Entry} {i : Nat} :
    lastIdx? p l = some i ↔
      ∃ e, l[i]? = some e ∧ p e = true ∧ ∀ j x, i < j → l[j]? = some x → p x = false := by
  refine ⟨lastIdx?_spec, fun ⟨e, he, pe, last⟩ => ?_⟩
  cases h : lastIdx? p l with
  | none => rw [lastIdx?_eq_none_iff.mp h e (List.mem_of_getElem? he)] at pe; cases pe
  | some k =>
    obtain ⟨x, hx, px, last'⟩ := lastIdx?_spec h
    rcases Nat.lt_trichotomy i k with lt | eq | gt
    · rw [last k x lt hx] at px; cases px
    · rw [eq]
    · rw [last' i e gt he] at pe; cases pe

/-- The first position that meets a test is the only one, where the entries that meet it are kept apart. -/
theorem findIdx?_eq_some_iff_of_pairwise {p : Entry → Bool} {l : List Entry}
    (apart : l.Pairwise fun a b => ¬(p a = true ∧ p b = true)) {i : Nat} :
    l.findIdx? p = some i ↔ ∃ e, l[i]? = some e ∧ p e = true := by
  constructor
  · intro h
    obtain ⟨hi, pi, -⟩ := List.findIdx?_eq_some_iff_getElem.mp h
    exact ⟨l[i], List.getElem?_eq_getElem hi, pi⟩
  · rintro ⟨e, he, pe⟩
    obtain ⟨hi, rfl⟩ := List.getElem?_eq_some_iff.mp he
    refine List.findIdx?_eq_some_iff_getElem.mpr ⟨hi, pe, fun j lt => ?_⟩
    intro pj
    exact List.pairwise_iff_getElem.mp apart j i (by omega) hi lt ⟨pj, pe⟩

/-- Settles O26: a loose member's target is the first PENDING entry for the page, a strict member's its last
entry where that is PENDING and for the page. -/
theorem mergeTargetFollowsTheOrder : Obligations.MergeTargetFollowsTheOrder := by
  intro s m page
  refine ⟨fun loose => ⟨?_, fun one i => ?_⟩, fun strict i => ?_⟩
  · simp only [State.mergeTarget, loose, Bool.false_eq_true, if_false, List.findIdx?_eq_none_iff]
    refine forall₂_congr fun e _ => ?_
    cases e.isPending <;> simp
  · simp only [State.mergeTarget, loose, Bool.false_eq_true, if_false]
    rw [findIdx?_eq_some_iff_of_pairwise (one.imp fun apart => ?_)]
    · refine exists_congr fun e => and_congr_right fun _ => ?_
      simp only [Bool.and_eq_true, beq_iff_eq]; tauto
    · simp only [Bool.and_eq_true, beq_iff_eq]
      rintro ⟨⟨⟨ma, pa⟩, ga⟩, ⟨⟨mb, pb⟩, gb⟩⟩
      exact apart ⟨ma.trans mb.symm, ga.trans gb.symm, by rw [ma, loose], pa, pb⟩
  · simp only [State.mergeTarget, strict, if_true, Option.filter_eq_some_iff, lastIdx?_eq_some_iff,
      beq_iff_eq, beq_eq_false_iff_ne]
    constructor
    · rintro ⟨⟨e, he, member, last⟩, waits⟩
      simp only [he, Bool.and_eq_true, beq_iff_eq] at waits
      exact ⟨e, he, member, waits.2, waits.1, last⟩
    · rintro ⟨e, he, member, same, pending, last⟩
      exact ⟨⟨e, he, member, last⟩, by simp [he, same, pending]⟩

/-! ## The overlay (R62) -/

/-- The byte that an entry holds for a member address. -/
def State.entryByte (s : State) (m : MemberIx) (a : MemberAddr) (e : Entry) : Option Byte :=
  if e.member = m ∧ e.page = a / (s.info m).pageSize then
    e.image.byteAt (a % (s.info m).pageSize)
  else none

theorem State.entryByte_eq_some_iff {s : State} {m : MemberIx} {a : MemberAddr} {e : Entry}
    {b : Byte} :
    s.entryByte m a e = some b ↔ e.member = m ∧ e.page = a / (s.info m).pageSize ∧
      e.image.byteAt (a % (s.info m).pageSize) = some b := by
  unfold State.entryByte; split <;> simp_all

theorem State.entryByte_eq_none_iff {s : State} {m : MemberIx} {a : MemberAddr} {e : Entry} :
    s.entryByte m a e = none ↔ (e.member = m → e.page = a / (s.info m).pageSize →
      e.image.byteAt (a % (s.info m).pageSize) = none) := by
  unfold State.entryByte; split <;> simp_all

/-- The overlay is the last entry's byte, of those that hold one. -/
theorem State.overlayByte_eq (s : State) (m : MemberIx) (a : MemberAddr) :
    s.overlayByte m a = (s.journal.reverse).findSome? (s.entryByte m a) := by
  have general : ∀ (l : List Entry) (found : Option Byte),
      l.foldl (fun found e => (s.entryByte m a e).or found) found =
        (l.reverse.findSome? (s.entryByte m a)).or found := by
    intro l
    induction l with
    | nil => intro found; simp
    | cons e rest ih =>
      intro found
      rw [List.foldl_cons, ih, List.reverse_cons, List.findSome?_append, Option.or_assoc]
      cases h : s.entryByte m a e <;> simp [h]
  rw [← Option.or_none (o := List.findSome? _ _), ← general]
  unfold State.overlayByte
  congr 1
  funext found e
  simp only [State.entryByte, MemberRec.pageOf, MemberRec.offsetOf, Bool.and_eq_true, beq_iff_eq]
  split
  · cases e.image.byteAt (a % (s.info m).pageSize) <;> rfl
  · rfl

theorem findSome?_reverse_eq_some_iff {α β : Type} {l : List α} {f : α → Option β} {b : β} :
    l.reverse.findSome? f = some b ↔
      ∃ (i : Nat) (e : α), l[i]? = some e ∧ f e = some b ∧
        ∀ (j : Nat) (x : α), i < j → l[j]? = some x → f x = none := by
  induction l with
  | nil => simp
  | cons e rest ih =>
    rw [List.reverse_cons, List.findSome?_append, Option.or_eq_some_iff, ih]
    constructor
    · rintro (⟨i, x, hx, fx, last⟩ | ⟨none_, fe⟩)
      · refine ⟨i + 1, x, by simpa using hx, fx, fun j y lt hy => ?_⟩
        obtain ⟨n, rfl⟩ : ∃ n, j = n + 1 := ⟨j - 1, by omega⟩
        exact last n y (by omega) (by simpa using hy)
      · refine ⟨0, e, rfl, by simpa using fe, fun j y lt hy => ?_⟩
        obtain ⟨n, rfl⟩ : ∃ n, j = n + 1 := ⟨j - 1, by omega⟩
        exact List.findSome?_eq_none_iff.mp none_ y
          (List.mem_reverse.mpr (List.mem_of_getElem? (by simpa using hy)))
    · rintro ⟨i, x, hx, fx, last⟩
      cases i with
      | zero =>
        cases hx
        refine .inr ⟨List.findSome?_eq_none_iff.mpr fun y hy => ?_, by simpa using fx⟩
        obtain ⟨n, hn⟩ := List.getElem?_of_mem (List.mem_reverse.mp hy)
        exact last (n + 1) y (by omega) (by simpa using hn)
      | succ i =>
        exact .inl ⟨i, x, by simpa using hx, fx, fun j y lt hy =>
          last (j + 1) y (by omega) (by simpa using hy)⟩

/-- Settles O30. -/
theorem overlayIsTheYoungestByte : Obligations.OverlayIsTheYoungestByte := by
  intro s m a b
  rw [State.overlayByte_eq, findSome?_reverse_eq_some_iff]
  simp only [State.entryByte_eq_some_iff, State.entryByte_eq_none_iff, and_assoc]

/-! ## The arbiter's choice (R122) -/

theorem Entry.flight?_eq_some_iff {e : Entry} {f : Flight} :
    e.flight? = some f ↔ e.state = .inFlight f := by
  unfold Entry.flight?; split <;> simp_all

/-- The class of the request of an in-flight state. -/
def Stage.commitClass : Stage → CommitClass
  | .cycling => .poll
  | .filling | .verifying => .read
  | .issuing => .issue

theorem Stage.commitClass_request (st : Stage) (m : MemberIx) :
    (st.request m).commitClass = some st.commitClass := by
  cases st <;> rfl

theorem Stage.request_isCommit (st : Stage) (m : MemberIx) : (st.request m).isCommit = true := by
  cases st <;> rfl

/-- The entry at a position is in flight and the request of its next step waits. -/
def State.WaitsAt (s : State) (i : Nat) (e : Entry) (f : Flight) : Prop :=
  s.journal[i]? = some e ∧ e.state = .inFlight f ∧ f.stage.request e.member ∈ s.ds.waiting

/-- The request of a class that an entry makes the arbiter's earliest of that class. -/
theorem State.earliestOf_spec {s : State} {c : CommitClass} {r : Request}
    (h : s.earliestOf c = some r) :
    ∃ i e f, s.WaitsAt i e f ∧ r = f.stage.request e.member ∧ f.stage.commitClass = c ∧
      ∀ j e' f', s.WaitsAt j e' f' → f'.stage.commitClass = c → i ≤ j := by
  obtain ⟨before, e, after, journal, picked, skipped⟩ := List.findSome?_eq_some_iff.mp h
  have at_ : s.journal[before.length]? = some e := by rw [journal]; simp
  cases hf : e.flight? with
  | none => simp [hf] at picked
  | some f =>
    simp only [hf, Stage.commitClass_request] at picked
    split at picked
    · rename_i waits
      simp only [Bool.and_eq_true, beq_iff_eq, Option.some.injEq, List.contains_eq_mem,
        decide_eq_true_eq] at waits
      cases picked
      refine ⟨before.length, e, f, ⟨at_, Entry.flight?_eq_some_iff.mp hf, waits.2⟩, rfl, waits.1,
        fun j e' f' ⟨hj, hs, hw⟩ hc => ?_⟩
      by_contra lt
      have earlier : e' ∈ before := by
        rw [journal, List.getElem?_append_left (by omega)] at hj
        exact List.mem_of_getElem? hj
      have none_ := skipped e' earlier
      simp [Entry.flight?_eq_some_iff.mpr hs, Stage.commitClass_request, hc, hw] at none_
    · cases picked

theorem State.earliestOf_none {s : State} {c : CommitClass} (h : s.earliestOf c = none) {i : Nat}
    {e : Entry} {f : Flight} (w : s.WaitsAt i e f) : f.stage.commitClass ≠ c := by
  obtain ⟨hi, hs, hw⟩ := w
  intro hc
  have none_ := List.findSome?_eq_none_iff.mp h e (List.mem_of_getElem? hi)
  simp [Entry.flight?_eq_some_iff.mpr hs, Stage.commitClass_request, hc, hw] at none_

/-- The rank of a class in the order in which they are served. -/
def CommitClass.rank : CommitClass → Nat
  | .poll => 0
  | .read => 1
  | .issue => 2

theorem Stage.rank_eq (st : Stage) : st.rank = st.commitClass.rank := by cases st <;> rfl

/-- The first entry of a class comes first of all where the classes before it have none. -/
theorem State.first_of_earliestOf {s : State} {c : CommitClass} {r : Request}
    (h : s.earliestOf c = some r) (before : ∀ c', c'.rank < c.rank → s.earliestOf c' = none) :
    ∃ i e f, s.WaitsAt i e f ∧ r = f.stage.request e.member ∧
      ∀ j e' f', s.WaitsAt j e' f' →
        f.stage.rank < f'.stage.rank ∨ (f.stage.rank = f'.stage.rank ∧ i ≤ j) := by
  obtain ⟨i, e, f, waits, req, cls, first⟩ := State.earliestOf_spec h
  refine ⟨i, e, f, waits, req, fun j e' f' w => ?_⟩
  rw [Stage.rank_eq, Stage.rank_eq, cls]
  rcases Nat.lt_trichotomy c.rank f'.stage.commitClass.rank with lt | eq | gt
  · exact .inl lt
  · refine .inr ⟨eq, first j e' f' w ?_⟩
    cases c <;> cases hc : f'.stage.commitClass <;> simp_all [CommitClass.rank]
  · exact absurd rfl (State.earliestOf_none (before _ gt) w)

theorem State.commitChoice_spec {s : State} {r : Request} (h : s.commitChoice = some r) :
    ∃ i e f, s.WaitsAt i e f ∧ r = f.stage.request e.member ∧
      ∀ j e' f', s.WaitsAt j e' f' →
        f.stage.rank < f'.stage.rank ∨ (f.stage.rank = f'.stage.rank ∧ i ≤ j) := by
  simp only [State.commitChoice, Option.or_eq_some_iff] at h
  rcases h with poll | ⟨noPoll, read | ⟨noRead, issue⟩⟩
  · exact State.first_of_earliestOf poll fun c lt => by cases c <;> simp [CommitClass.rank] at lt
  · exact State.first_of_earliestOf read fun c lt => by
      cases c <;> simp [CommitClass.rank] at lt; exact noPoll
  · exact State.first_of_earliestOf issue fun c lt => by
      cases c <;> simp [CommitClass.rank] at lt
      · exact noPoll
      · exact noRead

theorem State.commitChoice_isSome {s : State} {i : Nat} {e : Entry} {f : Flight}
    (w : s.WaitsAt i e f) : s.commitChoice.isSome = true := by
  cases h : s.commitChoice with
  | some r => rfl
  | none =>
    simp only [State.commitChoice, Option.or_eq_none_iff] at h
    obtain ⟨noPoll, noRead, noIssue⟩ := h
    cases hc : f.stage.commitClass with
    | poll => exact absurd hc (State.earliestOf_none noPoll w)
    | read => exact absurd hc (State.earliestOf_none noRead w)
    | issue => exact absurd hc (State.earliestOf_none noIssue w)

/-- Everything that the arbiter can choose, and when (R122). -/
theorem State.choice_cases {s : State} {r : Request} (h : s.choice = some r) :
    (s.commitChoice = some r ∧
      (s.ds.starvation = 4 ∨ s.ds.waiting.find? Request.isUpstream = none)) ∨
    (s.ds.waiting.find? Request.isUpstream = some r ∧
      ¬(s.ds.starvation = 4 ∧ s.commitChoice.isSome = true)) ∨
    (s.ds.waiting.find? Request.isUpstream = none ∧ s.commitChoice = none ∧
      s.ds.waiting.find? Request.isService = some r) := by
  simp only [State.choice] at h
  split at h
  · rename_i starved
    exact .inl ⟨h, .inl starved.1⟩
  · rename_i free
    simp only [Option.or_eq_some_iff] at h
    rcases h with up | ⟨noUp, commit | ⟨noCommit, service⟩⟩
    · exact .inr (.inl ⟨up, free⟩)
    · exact .inl ⟨commit, .inr noUp⟩
    · exact .inr (.inr ⟨noUp, noCommit, service⟩)

theorem Request.not_service_of_upstream {r : Request} (h : r.isUpstream = true) :
    r.isService = false := by simp [Request.isService, h]

theorem Request.not_service_of_commit {r : Request} (h : r.isCommit = true) :
    r.isService = false := by simp [Request.isService, h]

theorem Request.not_commit_of_upstream {r : Request} (h : r.isUpstream = true) :
    r.isCommit = false := by cases r <;> simp_all [Request.isUpstream, Request.isCommit]

theorem Request.not_commit_of_service {r : Request} (h : r.isService = true) :
    r.isCommit = false := by
  simp only [Request.isService, Bool.and_eq_true, Bool.not_eq_true'] at h; exact h.2

/-- Settles O47. -/
theorem arbiterChoosesInOrder : Obligations.ArbiterChoosesInOrder := by
  intro s
  refine ⟨fun r chosen => ?_, fun u hu notCommit => ?_⟩
  · have commitCase : s.commitChoice = some r → r.isCommit = true := fun commit => by
      obtain ⟨_, _, _, _, rfl, _⟩ := State.commitChoice_spec commit
      exact Stage.request_isCommit _ _
    refine ⟨?waits, ?inFlight, ?upstream, ?commit, ?service⟩
    case waits =>
      rcases State.choice_cases chosen with ⟨commit, -⟩ | ⟨up, -⟩ | ⟨-, -, service⟩
      · obtain ⟨_, _, _, ⟨_, _, waits⟩, rfl, _⟩ := State.commitChoice_spec commit
        exact waits
      · exact List.mem_of_find?_eq_some up
      · exact List.mem_of_find?_eq_some service
    case inFlight =>
      intro e f he hs hw
      obtain ⟨i, hi⟩ := List.getElem?_of_mem he
      have some_ := State.commitChoice_isSome (s := s) (i := i) ⟨hi, hs, hw⟩
      rcases State.choice_cases chosen with ⟨commit, -⟩ | ⟨up, fair⟩ | ⟨-, none_, -⟩
      · have := commitCase commit
        exact ⟨Request.not_service_of_commit this, fun _ => this⟩
      · exact ⟨Request.not_service_of_upstream (List.find?_some up),
          fun starved => absurd ⟨starved, some_⟩ fair⟩
      · rw [none_] at some_; cases some_
    case upstream =>
      intro u hu up
      have found : s.ds.waiting.find? Request.isUpstream ≠ none := fun none_ => by
        simpa [up] using List.find?_eq_none.mp none_ u hu
      rcases State.choice_cases chosen with ⟨commit, why⟩ | ⟨up, -⟩ | ⟨none_, -, -⟩
      · exact ⟨Request.not_service_of_commit (commitCase commit),
          fun fed => absurd (why.resolve_left fed) found⟩
      · have := List.find?_some up
        exact ⟨Request.not_service_of_upstream this, fun _ => this⟩
      · exact absurd none_ found
    case commit =>
      intro isCommit
      rcases State.choice_cases chosen with ⟨commit, -⟩ | ⟨up, -⟩ | ⟨-, -, service⟩
      · obtain ⟨i, e, f, ⟨he, hs, _⟩, req, first⟩ := State.commitChoice_spec commit
        exact ⟨i, e, f, he, hs, req, fun j e' f' he' hs' hw' => first j e' f' ⟨he', hs', hw'⟩⟩
      · rw [Request.not_commit_of_upstream (List.find?_some up)] at isCommit; cases isCommit
      · rw [Request.not_commit_of_service (List.find?_some service)] at isCommit; cases isCommit
    case service =>
      intro isService
      rcases State.choice_cases chosen with ⟨commit, -⟩ | ⟨up, -⟩ | ⟨-, -, service⟩
      · rw [Request.not_service_of_commit (commitCase commit)] at isService; cases isService
      · rw [Request.not_service_of_upstream (List.find?_some up)] at isService; cases isService
      · obtain ⟨-, before, after, waiting, skipped⟩ := List.find?_eq_some_iff_append.mp service
        exact ⟨before, after, waiting, fun q hq => by simpa using skipped q hq⟩
  · have upOrService : u.isUpstream = true ∨ u.isService = true := by
      cases up : u.isUpstream <;> simp [Request.isService, up, notCommit]
    simp only [State.choice]
    split
    · rename_i starved; exact starved.2
    · rcases upOrService with up | service
      · have : (s.ds.waiting.find? Request.isUpstream).isSome = true :=
          List.find?_isSome.mpr ⟨u, hu, up⟩
        simp [Option.isSome_or, this]
      · have : (s.ds.waiting.find? Request.isService).isSome = true :=
          List.find?_isSome.mpr ⟨u, hu, service⟩
        simp [Option.isSome_or, this]

end Sys2Proof.Machine
end

section
/-! The planning of an attempt: the runs of an image (O37) and the selection of an entry (O38). -/

namespace Sys2Proof.Machine

/-! ## The meaning of a command -/

/-- A command whose event the state has: its body, and then the quiesce timer. `r` is the command's own
meaning, one of the arms of exec. -/
theorem exec_next (r : Result) {s u : State} {body : State → Option State}
    (meaning : r = s.take body) (running : s.inReset = false) (event : body s = some u) :
    r = .next u.settle :=
  meaning.trans (State.take_some running event)

/-! ## The runs of an image (R37) -/

/-- Runs that lie apart from one another, each behind a first offset and of one byte or more. -/
structure RunsRight (img : PageImage) (i : Nat) (l : List Run) : Prop where
  cover : ∀ o, i ≤ o → ((img.byteAt (o - i)).isSome = true ↔ ∃ r ∈ l, r.start ≤ o ∧ o < r.start + r.len)
  behind : ∀ r ∈ l, i ≤ r.start
  long : ∀ r ∈ l, 1 ≤ r.len
  apart : l.Pairwise fun a b => a.start + a.len < b.start
  total : (l.map (·.len)).sum = img.validCount

theorem PageImage.byteAt_cons_of_lt {x : Option Byte} {img : PageImage} {i o : Nat} (h : i < o) :
    PageImage.byteAt (x :: img) (o - i) = img.byteAt (o - (i + 1)) := by
  obtain ⟨k, rfl⟩ : ∃ k, o = i + 1 + k := ⟨o - (i + 1), by omega⟩
  rw [show i + 1 + k - i = k + 1 by omega, show i + 1 + k - (i + 1) = k by omega,
    PageImage.byteAt_succ]

theorem runsFrom_right (img : PageImage) (i : Nat) : RunsRight img i (runsFrom img i) := by
  induction img generalizing i with
  | nil =>
    exact ⟨fun o _ => by simp [runsFrom, PageImage.byteAt], nofun, nofun, .nil, rfl⟩
  | cons x rest ih =>
    obtain ⟨cover, behind, long, apart, total⟩ := ih (i + 1)
    have later : ∀ o, i < o → ((PageImage.byteAt (x :: rest) (o - i)).isSome = true ↔
        ∃ r ∈ runsFrom rest (i + 1), r.start ≤ o ∧ o < r.start + r.len) := fun o lt => by
      rw [PageImage.byteAt_cons_of_lt lt]; exact cover o lt
    cases x with
    | none =>
      refine ⟨fun o le => ?_, fun r hr => by have := behind r hr; omega, long, apart, ?_⟩
      · rcases Nat.lt_or_eq_of_le le with lt | rfl
        · exact later o lt
        · simp only [Nat.sub_self, PageImage.byteAt_zero, Option.isSome_none, Bool.false_eq_true,
            false_iff]
          rintro ⟨r, hr, le, -⟩
          have := behind r hr
          omega
      · simpa [PageImage.validCount, runsFrom] using total
    | some b =>
      have count : PageImage.validCount (some b :: rest) = PageImage.validCount rest + 1 := by
        simp [PageImage.validCount]
      simp only [runsFrom]
      split
      · rename_i none_
        rw [none_] at later total
        refine ⟨fun o le => ?_, by simp, by simp, List.pairwise_singleton _ _, ?_⟩
        · rcases Nat.lt_or_eq_of_le le with lt | rfl
          · rw [later o lt]; simp; omega
          · simp
        · rw [count, ← total]; rfl
      · rename_i r rs runs
        rw [runs] at later behind long apart total
        obtain ⟨gap, tail⟩ := List.pairwise_cons.mp apart
        have first := behind r List.mem_cons_self
        have size := long r List.mem_cons_self
        split
        · rename_i joins
          refine ⟨fun o le => ?_, ?_, ?_, List.pairwise_cons.mpr ⟨fun q hq => ?_, tail⟩, ?_⟩
          · simp only [List.mem_cons, exists_eq_or_imp]
            rcases Nat.lt_or_eq_of_le le with lt | rfl
            · rw [later o lt]; simp only [List.mem_cons, exists_eq_or_imp]
              refine or_congr ?_ Iff.rfl; omega
            · simp
          · intro q hq
            rcases List.mem_cons.mp hq with rfl | hq
            · exact le_rfl
            · have := behind q (List.mem_cons_of_mem r hq); omega
          · intro q hq
            rcases List.mem_cons.mp hq with rfl | hq
            · exact Nat.le_add_left _ _
            · exact long q (List.mem_cons_of_mem r hq)
          · have := gap q hq
            show i + (r.len + 1) < q.start
            omega
          · rw [count, ← total]; simp only [List.map_cons, List.sum_cons]; omega
        · rename_i alone
          refine ⟨fun o le => ?_, ?_, ?_, List.pairwise_cons.mpr ⟨fun q hq => ?_, apart⟩, ?_⟩
          · rw [List.exists_mem_cons_iff]
            rcases Nat.lt_or_eq_of_le le with lt | rfl
            · rw [later o lt]
              refine ⟨.inr, fun h => h.resolve_left ?_⟩
              show ¬(i ≤ o ∧ o < i + 1)
              omega
            · simp
          · intro q hq
            rcases List.mem_cons.mp hq with rfl | hq
            · exact le_rfl
            · have := behind q hq; omega
          · intro q hq
            rcases List.mem_cons.mp hq with rfl | hq
            · exact le_rfl
            · exact long q hq
          · show i + 1 < q.start
            rcases List.mem_cons.mp hq with rfl | hq
            · omega
            · have := gap q hq; omega
          · rw [count, ← total]; simp only [List.map_cons, List.sum_cons]; omega

theorem PageImage.runs_right (img : PageImage) : RunsRight img 0 img.runs := runsFrom_right img 0

theorem PageImage.isSome_byteAt_iff (img : PageImage) (o : Nat) :
    (img.byteAt o).isSome = true ↔ ∃ r ∈ img.runs, r.start ≤ o ∧ o < r.start + r.len :=
  img.runs_right.cover o (Nat.zero_le o)

/-- The span of the FILL policy is from the lowest set offset to the highest (R38). -/
theorem PageImage.span_eq {img : PageImage} {lo hi : Nat} (hlo : (img.byteAt lo).isSome = true)
    (hhi : (img.byteAt hi).isSome = true)
    (bounds : ∀ o, (img.byteAt o).isSome = true → lo ≤ o ∧ o ≤ hi) :
    img.span = { start := lo, len := hi - lo + 1 } := by
  obtain ⟨-, -, long, apart, -⟩ := img.runs_right
  obtain ⟨a, ha, alo, -⟩ := (img.isSome_byteAt_iff lo).mp hlo
  obtain ⟨z, hz, -, zhi⟩ := (img.isSome_byteAt_iff hi).mp hhi
  have inside : ∀ r ∈ img.runs, ∀ o, r.start ≤ o → o < r.start + r.len → lo ≤ o ∧ o ≤ hi :=
    fun r hr o le lt => bounds o ((img.isSome_byteAt_iff o).mpr ⟨r, hr, le, lt⟩)
  have ends : ∀ r ∈ img.runs, lo ≤ r.start ∧ r.start + r.len ≤ hi + 1 := fun r hr => by
    have := long r hr
    have first := inside r hr r.start le_rfl (by omega)
    have last := inside r hr (r.start + r.len - 1) (by omega) (by omega)
    omega
  have ordered : ∀ i j (hi : i < img.runs.length) (hj : j < img.runs.length), i ≤ j →
      img.runs[i].start ≤ img.runs[j].start ∧
        img.runs[i].start + img.runs[i].len ≤ img.runs[j].start + img.runs[j].len := by
    intro i j hi hj le
    rcases Nat.lt_or_eq_of_le le with lt | rfl
    · have := List.pairwise_iff_getElem.mp apart i j hi hj lt; omega
    · exact ⟨le_rfl, le_rfl⟩
  obtain ⟨i, hi, rfl⟩ := List.getElem_of_mem ha
  obtain ⟨j, hj, rfl⟩ := List.getElem_of_mem hz
  have nonempty : 0 < img.runs.length := by omega
  have head : img.runs.head? = some img.runs[0] := by
    rw [List.head?_eq_getElem?, List.getElem?_eq_getElem nonempty]
  have last : img.runs.getLast? = some img.runs[img.runs.length - 1] := by
    rw [List.getLast?_eq_getElem?, List.getElem?_eq_getElem (by omega)]
  simp only [PageImage.span, head, last]
  have starts := ordered 0 i nonempty hi (Nat.zero_le i)
  have stops := ordered j (img.runs.length - 1) hj (by omega) (by omega)
  have first := ends img.runs[0] (List.getElem_mem nonempty)
  have final := ends img.runs[img.runs.length - 1] (List.getElem_mem (by omega))
  have order := bounds lo hlo
  congr 1 <;> omega

/-- Settles O37, by induction on the image. -/
theorem runsAreTheMaximalSpans : Obligations.RunsAreTheMaximalSpans := fun img =>
  have ⟨_, _, long, apart, total⟩ := img.runs_right
  ⟨img.isSome_byteAt_iff, total, long, apart, fun _ _ => PageImage.span_eq⟩

/-! ## The selection (R31, R32) -/

theorem planFlight_runs {r : MemberRec} (h : r.fill = false) (img : PageImage) :
    (planFlight r img).stage = .issuing ∧ (planFlight r img).runs = img.runs := by
  simp [planFlight, h]

theorem planFlight_fill {r : MemberRec} (h : r.fill = true) (img : PageImage) :
    (planFlight r img).runs = [img.span] ∧
      (img.span.len = img.validCount → (planFlight r img).stage = .issuing) ∧
      (img.span.len ≠ img.validCount → (planFlight r img).stage = .filling) := by
  simp +contextual [planFlight, h]

/-- The earliest offered entry of a qualifying member is the one selected (R32). -/
theorem State.selected?_eq {s : State} {i : Nat} {e : Entry} (he : s.journal[i]? = some e)
    (offered : s.offered i = true) (ready : s.qualifies e.member = true)
    (first : ∀ (j : Nat) (e' : Entry), j < i → s.journal[j]? = some e' → s.offered j = true →
      s.qualifies e'.member = false) : s.selected? = some i := by
  obtain ⟨inside, -⟩ := List.getElem?_eq_some_iff.mp he
  refine List.find?_range_eq_some.mpr ⟨by simp [offered, he, ready], by simpa using inside,
    fun j lt => ?_⟩
  cases hj : s.journal[j]? with
  | none => simp [State.offered, hj]
  | some x =>
    by_cases o : s.offered j = true
    · simp [o, first j x lt hj o]
    · simp [o]

/-- Where a member's slot is empty, an entry of it that becomes in flight is in the slot (R29). -/
theorem State.slot_set_of_empty {s : State} {i : Nat} {e : Entry} {f : Flight}
    (he : s.journal[i]? = some e) (empty : s.slot e.member = none) :
    ({ s with journal := s.journal.set i { e with state := .inFlight f } } : State).slot e.member =
      some f := by
  have noEntry : s.slotEntry e.member = none := by
    cases h : s.slotEntry e.member with
    | none => rfl
    | some x =>
      obtain ⟨-, -, flying⟩ := State.slotEntry_spec h
      simp only [State.slot, h, Option.bind_some] at empty
      rw [Entry.isInFlight, empty] at flying; cases flying
  have entry : ({ s with journal := s.journal.set i { e with state := .inFlight f } } :
      State).slotEntry e.member = some { e with state := .inFlight f } := by
    obtain ⟨inside, rfl⟩ := List.getElem?_eq_some_iff.mp he
    rw [State.slotEntry, List.find?_eq_none] at noEntry
    rw [State.slotEntry, List.set_eq_take_append_cons_drop, if_pos inside, List.find?_append,
      List.find?_eq_none.mpr fun x hx => noEntry x (List.mem_of_mem_take hx)]
    simp [Entry.isInFlight, Entry.flight?]
  exact State.slot_eq entry rfl

/-- Settles O38: the selection of the model is `selectAt` at the earliest such position. -/
theorem selectionPlansTheEarliestEntry : Obligations.SelectionPlansTheEarliestEntry := by
  intro s i e running he
  refine ⟨⟨(s.advanceTo e.deadline).settle, ?_, rfl, fun pending => ?_, ?_⟩,
    fun opened offered ready first => ?_⟩
  · exact exec_next (execDwellExpiry i s) rfl running (by simp [he])

  · simp [State.eligible, pending]
  · intro p hp; cases p <;> simp_all [State.sameAt]
  · have picked := State.selected?_eq he offered ready first
    have ready' := ready
    simp only [State.qualifies, Bool.and_eq_true, Option.isNone_iff_eq_none, Bool.not_eq_true']
      at ready'
    obtain ⟨⟨-, empty⟩, noRead⟩ := ready'
    have raised := State.mem_raiseStep
      (State.slot_set_of_empty (f := planFlight (s.info e.member) e.image) he empty) (.inr noRead)
    refine ⟨(s.selectAt i e).settle, planFlight (s.info e.member) e.image,
      exec_next (execSelection s) rfl running (by simp [opened, picked, he]), by simp [State.selectAt],
      rfl, rfl, rfl, rfl, rfl, fun runs => ?_, fun fill => ?_, ?_⟩
    · obtain ⟨stage, list⟩ := planFlight_runs runs e.image
      rw [stage] at raised
      exact ⟨stage, list, raised⟩
    · obtain ⟨list, full, gaps⟩ := planFlight_fill fill e.image
      refine ⟨list, fun k => ⟨full k, ?_⟩, fun k => ⟨gaps k, ?_⟩⟩
      · rw [full k] at raised; exact raised
      · rw [gaps k] at raised; exact raised
    · refine State.sameBut_trans ?_ (State.sameBut_mono (State.sameBut_settle _) (by simp))
      refine State.sameBut_trans ?_ (State.sameBut_mono (State.raiseStep_sameBut _ _) (by simp))
      intro p hp; cases p <;> simp_all [State.sameAt]

end Sys2Proof.Machine
end

section
/-! The failure of an attempt (R47 to R49): what it counts and records first, and then the retry or the
exhaustion (O45). -/

namespace Sys2Proof.Machine

/-! ## Updates of one slot's entries -/

theorem State.updateSlotEntry_journal_eq (s : State) (m : MemberIx) (g : Entry → Entry) :
    (s.updateSlotEntry m fun _ => g).journal =
      s.journal.map fun x => if x.member = m ∧ x.isInFlight = true then g x else x := by
  refine List.map_congr_left fun x _ => ?_
  cases h : x.flight? <;> by_cases same : x.member = m <;> simp [Entry.isInFlight, h, same]

/-- The table after the end of a member's CYCLE: the member is ONLINE where it was in CYCLE (R86). -/
theorem State.memberState_leaveCycle_eq (s : State) (m k : MemberIx) :
    (s.leaveCycle m).memberState k =
      if k = m ∧ s.memberState m = .cycle then .online else s.memberState k := by
  by_cases cycle : s.memberState m = .cycle
  · have row := State.row_of_memberState (s := s) (m := m) (by rw [cycle]; nofun)
    have table : (s.leaveCycle m).members = (s.setMember m .online).members := by
      unfold State.leaveCycle; dsimp only; rw [if_pos cycle]
      split
      · split <;> simp
      · rfl
    rw [State.memberState_congr table]
    by_cases same : k = m
    · simp [same, cycle, State.memberState_setMember row]
    · simp [same, State.memberState_setMember_ne same]
  · simp [State.leaveCycle, cycle]

/-! ## The failed attempt, before its retry or exhaustion (R47) -/

/-- The attempt of the entry in a slot has been counted and recorded, its member has left CYCLE, and no request
of the slot waits (R47). -/
def State.failing (s : State) (m : MemberIx) (e : Entry) (c : Cause) : State :=
  ((((s.updateSlotEntry m fun _ e => { e with attempts := e.attempts + 1 }).record .attemptFailed
    (some m) (some e.page) c.code).leaveCycle m).withdrawSlot m)

section
variable (s : State) (m k : MemberIx) (e : Entry) (c : Cause)

@[simp] theorem State.failing_journal :
    (s.failing m e c).journal = s.journal.map fun x =>
      if x.member = m ∧ x.isInFlight = true then { x with attempts := x.attempts + 1 } else x := by
  rw [← State.updateSlotEntry_journal_eq]; simp [State.failing]

@[simp] theorem State.failing_info : (s.failing m e c).info k = s.info k := by
  have table : ∀ u : State, (u.withdrawSlot m).info k = u.info k := fun u =>
    State.info_congr (by simp) k
  rw [State.failing, table, State.info_leaveCycle]; rfl

@[simp] theorem State.failing_memberState :
    (s.failing m e c).memberState k =
      if k = m ∧ s.memberState m = .cycle then .online else s.memberState k := by
  have table : ∀ u : State, (u.withdrawSlot m).memberState k = u.memberState k := fun u =>
    State.memberState_congr (by simp) k
  rw [State.failing, table, State.memberState_leaveCycle_eq]; rfl

@[simp] theorem State.failing_members_length : (s.failing m e c).members.length = s.members.length := by
  simp only [State.failing, State.withdrawSlot_members]
  unfold State.leaveCycle; dsimp only
  split
  · split
    · split <;> simp
    · simp
  · simp

@[simp] theorem State.failing_log :
    (s.failing m e c).log =
      pushRecord
        { stamp := s.stamp, kind := .attemptFailed, member := some m, page := some e.page,
          detail := BitVec.ofNat 8 c.code, lost := false, read := false } s.log := by
  simp [State.failing, State.stamp]

@[simp] theorem State.failing_now : (s.failing m e c).now = s.now := by simp [State.failing]

theorem State.failing_waiting (st : Stage) : st.request m ∉ (s.failing m e c).ds.waiting :=
  State.withdrawSlot_waiting _ m st

end

/-- Within the retry limit the attempt is planned again, and beyond it the member is HELD (R48, R49). -/
theorem State.failAttempt_eq {s : State} {m : MemberIx} {e : Entry} (h : s.slotEntry m = some e)
    (c : Cause) :
    s.failAttempt m c =
      if e.attempts + 1 ≤ (s.info m).retryLimit then (s.failing m e c).retry m
      else (s.failing m e c).exhaust m e.page := by
  rw [← State.failing_info s m m e c]
  simp only [State.failAttempt, h]
  rfl

theorem State.retry_journal_eq (s : State) (m : MemberIx) :
    (s.retry m).journal = s.journal.map fun x =>
      if x.member = m ∧ x.isInFlight = true then
        { x with state := .inFlight (planFlight (s.info m) x.image) }
      else x := by
  rw [← State.updateSlotEntry_journal_eq]; simp [State.retry]

theorem State.exhaust_journal_eq (s : State) (m : MemberIx) (page : Nat) :
    (s.exhaust m page).journal =
      s.journal.map fun x => if x.member = m then { x with state := .held } else x := by
  simp [State.exhaust]

theorem State.exhaust_log_eq (s : State) (m : MemberIx) (page : Nat) :
    (s.exhaust m page).log =
      pushRecord
        { stamp := s.stamp, kind := .entryHeld, member := some m, page := some page,
          detail := BitVec.ofNat 8 (s.journal.countP fun x => x.member == m), lost := false,
          read := false } s.log := by
  simp [State.exhaust, State.stamp]

/-- Exhaustion leaves the member HELD and the others as they were (R22). -/
theorem State.memberState_exhaust {s : State} {m : MemberIx} (row : m.val < s.members.length)
    (page : Nat) (k : MemberIx) :
    (s.exhaust m page).memberState k = if k = m then .held else s.memberState k := by
  have table : (s.exhaust m page).memberState k = (s.setMember m .held).memberState k := rfl
  rw [table]
  by_cases same : k = m
  · rw [if_pos same, same, State.memberState_setMember row]
  · rw [if_neg same, State.memberState_setMember_ne same]

/-- Settles O45. -/
theorem failedAttemptRetriesOrHolds : Obligations.FailedAttemptRetriesOrHolds := by
  intro s m e c he row
  rw [State.failAttempt_eq he]
  refine ⟨fun within => ?_, fun beyond => ?_⟩
  · rw [if_pos within]
    refine ⟨?_, ?_, by simp⟩
    · rw [State.retry_journal_eq, State.failing_journal, List.map_map]
      refine List.map_congr_left fun x _ => ?_
      by_cases mine : x.member = m ∧ x.isInFlight = true
      · have still : ({ x with attempts := x.attempts + 1 } : Entry).isInFlight = true := mine.2
        rw [Function.comp_apply, if_pos mine, if_pos ⟨mine.1, still⟩, if_pos mine, State.failing_info]
      · simp [mine]
    · rw [State.memberState_congr (s := s.failing m e c) (by simp)]; simp
  · rw [if_neg (by omega)]
    have row' : m.val < (s.failing m e c).members.length := by simpa using row
    refine ⟨?_, by simp [State.memberState_exhaust row'], fun k other => ?_, ?_, ?_⟩
    · rw [State.exhaust_journal_eq, State.failing_journal, List.map_map]
      refine List.map_congr_left fun x _ => ?_
      by_cases mine : x.member = m <;> by_cases flying : x.isInFlight = true <;>
        simp [mine, flying]
    · rw [State.memberState_exhaust row', if_neg other]; simp [other]
    · have count : (s.failing m e c).journal.countP (fun x => x.member == m) =
          s.journal.countP fun x => x.member == m := by
        rw [State.failing_journal, List.countP_map]
        refine List.countP_congr fun x _ => ?_
        by_cases mine : x.member = m ∧ x.isInFlight = true <;> simp [mine]
      rw [State.exhaust_log_eq, count, State.failing_log]
      simp [State.stamp]
    · intro st
      rw [State.exhaust_ds]
      exact s.failing_waiting m e c st

end Sys2Proof.Machine
end

section
/-! What the shared operations leave that more than one statement asks about: UNDERRUN (R73), the grant's
counter (R123), the access of the start sequence, and the entry to HALT_DOWN (R133). -/

namespace Sys2Proof.Machine

/-! ## The open read's end in UNDERRUN (R73) -/

section
variable {s : State} {o : OpenRead} (h : s.read = some o) (d : Nat)
include h

theorem State.underrun_read :
    (s.underrun d).read = some { o with cond := .underrun, buffer := none, recorded := true } := by
  simp only [State.underrun, h]; split <;> rfl

theorem State.underrun_up :
    (s.underrun d).up = { s.up with drive := s.up.drive ++ [.byte 0xFF], idle := some s.now } := by
  simp only [State.underrun, h]; split <;> rfl

/-- A read writes one READ_UNDERRUN record at most (R73). -/
theorem State.underrun_log :
    (s.underrun d).log =
      if o.recorded then s.log
      else
        pushRecord
          { stamp := s.stamp, kind := .readUnderrun, member := some o.member,
            page := some (s.pointer o.member / (s.info o.member).pageSize),
            detail := BitVec.ofNat 8 d, lost := false, read := false } s.log := by
  simp only [State.underrun, h]; split <;> rfl

end

/-! ## The grant's counter (R123) -/

theorem State.startRelay_ds (s : State) :
    s.startRelay.ds.ctl = s.ds.ctl ∧ s.startRelay.ds.waiting = s.ds.waiting ∧
      s.startRelay.ds.starvation = s.ds.starvation := by
  unfold State.startRelay; split <;> simp

theorem State.setPortAccess_sameBut (s : State) (a : Access) :
    s.sameBut (s.setPortAccess a) [.port] := by
  intro p hp; unfold State.setPortAccess
  split <;> cases p <;> simp_all [State.sameAt]

/-- What a grant does at the one that asked leaves the controller as the START left it. -/
theorem State.grantTo_ds (s : State) (r : Request) :
    (s.grantTo r).ds.ctl = s.ds.ctl ∧ (s.grantTo r).ds.waiting = s.ds.waiting ∧
      (s.grantTo r).ds.starvation = s.ds.starvation := by
  have port : ∀ a, (s.setPortAccess a).ds = s.ds := fun a =>
    s.setPortAccess_sameBut a .ds (by simp)
  cases r with
  | relay => exact s.startRelay_ds
  | descriptorRead who =>
    cases who <;> simp only [State.grantTo] <;> split <;> simp [port]
  | probe m => simp only [State.grantTo]; split <;> simp
  | descriptorWrite => simp only [State.grantTo]; split <;> simp
  | descriptorPoll => simp only [State.grantTo]; split <;> simp
  | _ => exact ⟨rfl, rfl, rfl⟩

theorem State.grant_starvation (s : State) (r : Request) :
    (s.grant r).ds.starvation = s.starvationAfter r := by
  rw [State.grant]
  exact (State.grantTo_ds _ r).2.2

/-! ## The access of the start sequence (R84, R169) -/

theorem State.setStartAccess_sameBut (s : State) (a : Access) :
    s.sameBut (s.setStartAccess a) [.os] := by
  intro p hp; cases p <;> simp_all [State.sameAt]

theorem State.askStart_sameBut (s : State) (w : Option Micros) :
    s.sameBut (s.askStart w) [.os, .ds] := by
  unfold State.askStart
  split
  · exact State.sameBut_trans (State.sameBut_mono (s.setStartAccess_sameBut _) (by simp))
      (State.sameBut_mono (State.raise_sameBut _ _) (by simp))
  · exact s.sameBut_refl _

/-- The start-up access asks: the access waits, and its request is raised. -/
theorem State.askStart_eq {s : State} {r : Request} (h : s.startRequest = some r)
    (w : Option Micros) :
    s.askStart w = (s.setStartAccess { asking := .waiting, window := w }).raise r := by
  simp [State.askStart, h]

theorem State.startRequest_descriptorRead {s : State} {a : Access}
    (h : s.os.start = some (.descriptorRead a)) :
    s.startRequest = some (.descriptorRead .startUp) := by
  simp [State.startRequest, h]

theorem State.startRequest_probing {s : State} {m : MemberIx} {a : Access}
    (h : s.os.start = some (.probing m a)) : s.startRequest = some (.probe m) := by
  simp [State.startRequest, h]

theorem State.setStartAccess_descriptorRead {s : State} {a : Access}
    (h : s.os.start = some (.descriptorRead a)) (b : Access) :
    (s.setStartAccess b).os.start = some (.descriptorRead b) := by
  simp [State.setStartAccess, h]

theorem State.setStartAccess_probing {s : State} {m : MemberIx} {a : Access}
    (h : s.os.start = some (.probing m a)) (b : Access) :
    (s.setStartAccess b).os.start = some (.probing m b) := by
  simp [State.setStartAccess, h]

/-! ## The reports of the entry to HALT_DOWN (R133) -/

/-- The controller after a report: only its waiting set may have changed, and a request that newly waits is the
start-up access's. -/
structure State.SameController (s t : State) : Prop where
  ctl : t.ds.ctl = s.ds.ctl
  starvation : t.ds.starvation = s.ds.starvation
  drive : t.ds.drive = s.ds.drive
  moved : t.ds.moved = s.ds.moved
  waiting : ∀ r ∈ t.ds.waiting, r ∈ s.ds.waiting ∨ s.startRequest = some r

theorem State.SameController.refl (s : State) : s.SameController s :=
  ⟨rfl, rfl, rfl, rfl, fun _ => .inl⟩

theorem State.SameController.trans {s t u : State} (h : s.SameController t)
    (k : t.SameController u) (start : t.startRequest = s.startRequest) : s.SameController u where
  ctl := k.ctl.trans h.ctl
  starvation := k.starvation.trans h.starvation
  drive := k.drive.trans h.drive
  moved := k.moved.trans h.moved
  waiting := fun r hr => (k.waiting r hr).elim (h.waiting r) fun asks => .inr (start ▸ asks)

theorem State.withdraw_ds_ctl_of_halted {s : State} {x : Micros} (h : s.ds.ctl = .halted x)
    (r : Request) : (s.withdraw r).ds.ctl = s.ds.ctl := by
  simp [State.withdraw, h]

theorem State.withdraw_sameController {s : State} {x : Micros} (h : s.ds.ctl = .halted x)
    (r : Request) : s.SameController (s.withdraw r) :=
  ⟨State.withdraw_ds_ctl_of_halted h r, rfl, rfl, rfl, fun _ hq => .inl (List.mem_of_mem_filter hq)⟩

theorem State.not_mem_withdraw (s : State) (r : Request) : r ∉ (s.withdraw r).ds.waiting := by
  simp

/-- The read that waits enters UNDERRUN; another is left (R69, R76). -/
theorem State.haltFetch_waiting {s : State} {o : OpenRead} {t0 : Micros} {f : Fetch}
    (h : s.read = some o) (k : o.cond = .waiting t0 f) :
    s.haltFetch = ((s.withdraw .fetch).say []).underrun 2 := by
  simp [State.haltFetch, h, k, State.fetchFailed]

theorem State.haltFetch_other {s : State}
    (h : ∀ o t0 f, s.read = some o → o.cond ≠ .waiting t0 f) : s.haltFetch = s := by
  unfold State.haltFetch
  split
  · split
    · rename_i o ho _ t0 f hf; exact absurd hf (h o t0 f ho)
    · rfl
  · rfl

theorem State.haltFetch_sameBut (s : State) : s.sameBut s.haltFetch [.ds, .log, .read, .up] := by
  unfold State.haltFetch
  split
  · split
    · refine State.sameBut_trans ?_ (State.sameBut_mono (State.underrun_sameBut _ _) (by simp))
      intro p hp; cases p <;> simp_all [State.sameAt]
    · exact s.sameBut_refl _
  · exact s.sameBut_refl _

theorem State.haltFetch_sameController {s : State} {x : Micros} (h : s.ds.ctl = .halted x) :
    s.SameController s.haltFetch := by
  unfold State.haltFetch
  split
  · split
    · have ds : (((s.withdraw .fetch).say []).fetchFailed).ds = (s.withdraw .fetch).ds := by
        simp [State.fetchFailed]
      have k := State.withdraw_sameController h .fetch
      exact ⟨ds ▸ k.ctl, ds ▸ k.starvation, ds ▸ k.drive, ds ▸ k.moved, ds ▸ k.waiting⟩
    · exact .refl s
  · exact .refl s

theorem State.haltFetch_phase (s : State) : s.haltFetch.up.phase = s.up.phase := by
  unfold State.haltFetch
  split
  · rename_i o ho
    split
    · rw [State.fetchFailed, State.underrun_up (s := (s.withdraw .fetch).say []) ho]; rfl
    · rfl
  · rfl

theorem State.haltRelay_other {s : State} (h : ∀ dev r x, s.up.phase ≠ .relayWait dev r x) :
    s.haltRelay = s := by
  unfold State.haltRelay
  split
  · rename_i hp; exact absurd hp (h _ _ _)
  · rfl

theorem State.haltRelay_sameBut (s : State) : s.sameBut s.haltRelay [.ds, .up] := by
  unfold State.haltRelay
  split
  · intro p hp; cases p <;> simp_all [State.sameAt, State.refuseRelay]
  · exact s.sameBut_refl _

theorem State.haltRelay_sameController {s : State} {x : Micros} (h : s.ds.ctl = .halted x) :
    s.SameController s.haltRelay := by
  unfold State.haltRelay
  split
  · have k := State.withdraw_sameController h .relay
    exact ⟨k.ctl, k.starvation, k.drive, k.moved, k.waiting⟩
  · exact .refl s

theorem State.haltStart_sameBut (s : State) : s.sameBut s.haltStart [.os, .ds] := by
  unfold State.haltStart
  split
  · split
    · exact State.sameBut_mono (s.setStartAccess_sameBut _) (by simp)
    · exact s.askStart_sameBut none
  · exact s.sameBut_refl _

theorem State.haltStart_part (s : State) :
    s.haltStart.os.part = s.os.part ∧ s.haltStart.os.ret = s.os.ret := by
  unfold State.haltStart State.askStart
  split
  · split
    · simp
    · split <;> simp
  · simp

theorem State.haltStart_sameController (s : State) : s.SameController s.haltStart := by
  have asked : ∀ w, s.SameController (s.askStart w) := fun w => by
    unfold State.askStart
    split
    · rename_i r hr
      refine ⟨by simp, by simp, by simp, by simp, fun q hq => ?_⟩
      rw [State.mem_raise] at hq
      exact hq.elim (fun same => .inr (same ▸ hr)) .inl
    · exact .refl s
  unfold State.haltStart
  split
  · split
    · exact ⟨rfl, rfl, rfl, rfl, fun _ => .inl⟩
    · exact asked none
  · exact .refl s

/-- An access of start-up that is not due keeps or makes its request, with no window; one that is due stays
due. -/
theorem State.haltStart_due {s : State} {a : Access} {due : Micros} (h : s.startAccess = some a)
    (k : a.asking = .dueAt due) :
    s.haltStart = s.setStartAccess { asking := .dueAt due, window := none } := by
  simp [State.haltStart, h, k]

theorem State.haltStart_asks {s : State} {a : Access} (h : s.startAccess = some a)
    (k : ∀ due, a.asking ≠ .dueAt due) : s.haltStart = s.askStart none := by
  simp only [State.haltStart, h]

theorem State.refuse_sameBut (s : State) (r : Byte) : s.sameBut (s.refuse r) [.port] :=
  s.finish_sameBut _ _

theorem State.haltPort_sameBut (s : State) : s.sameBut s.haltPort [.ds, .port] := by
  have refused : ∀ r, s.sameBut ((s.withdraw r).refuse reasonAccessFailed) [.ds, .port] := fun r =>
    State.sameBut_trans (State.sameBut_mono (s.withdraw_sameBut r) (by simp))
      (State.sameBut_mono (State.refuse_sameBut _ _) (by simp))
  unfold State.haltPort
  split
  · split
    · exact refused _
    · exact s.sameBut_refl _
  · split
    · exact refused _
    · exact s.sameBut_refl _
  · exact refused _
  · exact refused _
  · exact s.sameBut_refl _

theorem State.haltPort_sameController {s : State} {x : Micros} (h : s.ds.ctl = .halted x) :
    s.SameController s.haltPort := by
  have refused : ∀ r, s.SameController ((s.withdraw r).refuse reasonAccessFailed) := fun r => by
    have ds : ((s.withdraw r).refuse reasonAccessFailed).ds = (s.withdraw r).ds := by
      simp [State.refuse]
    have k := State.withdraw_sameController h r
    exact ⟨ds ▸ k.ctl, ds ▸ k.starvation, ds ▸ k.drive, ds ▸ k.moved, ds ▸ k.waiting⟩
  unfold State.haltPort
  split
  · split
    · exact refused _
    · exact .refl s
  · split
    · exact refused _
    · exact .refl s
  · exact refused _
  · exact refused _
  · exact .refl s

/-! ## The entry to HALT_DOWN (R133) -/

/-- The halt before its reports: the record, the part state, the controller, and the journal's return to
PENDING. -/
def State.haltBegun (s : State) : State :=
  ({ s.record .busStuck none none 0 with
      os := { s.os with part := .haltDown, ret := some s.os.part }
      ds := { s.ds with ctl := .halted (s.now + haltRetry), starvation := 0 }
    }.dropCommitRequests).returnToPending

theorem State.enterHalt_eq (s : State) :
    s.enterHalt = s.haltBegun.haltFetch.haltRelay.haltStart.haltPort := rfl

section
variable (s : State)

theorem State.haltBegun_ctl : s.haltBegun.ds.ctl = .halted (s.now + haltRetry) := rfl

theorem State.haltFetch_startRequest : s.haltFetch.startRequest = s.startRequest := by
  have os : s.haltFetch.os = s.os := by
    unfold State.haltFetch
    split
    · split
      · simp [State.fetchFailed]
      · rfl
    · rfl
  simp only [State.startRequest, os]

theorem State.haltRelay_startRequest : s.haltRelay.startRequest = s.startRequest := by
  have os : s.haltRelay.os = s.os := by unfold State.haltRelay; split <;> rfl
  simp only [State.startRequest, os]

theorem State.startRequest_setStartAccess (a : Access) :
    (s.setStartAccess a).startRequest = s.startRequest := by
  simp only [State.startRequest, State.setStartAccess]
  cases s.os.start with
  | none => rfl
  | some st => cases st <;> rfl

theorem State.haltStart_startRequest : s.haltStart.startRequest = s.startRequest := by
  have raised : ∀ (u : State) r, (u.raise r).startRequest = u.startRequest := fun u r => by
    simp only [State.startRequest, State.raise_os]
  unfold State.haltStart State.askStart
  split
  · split
    · exact s.startRequest_setStartAccess _
    · split
      · rw [raised, State.startRequest_setStartAccess]
      · rfl
  · rfl

/-- The reports of a halt leave the controller HALTED as it was. -/
theorem State.enterHalt_sameController : s.haltBegun.SameController s.enterHalt := by
  have fetched := State.haltFetch_sameController s.haltBegun_ctl
  have ctl : s.haltBegun.haltFetch.ds.ctl = .halted (s.now + haltRetry) := fetched.ctl
  have relayed := fetched.trans (State.haltRelay_sameController ctl) (State.haltFetch_startRequest _)
  have started := relayed.trans (State.haltStart_sameController _)
    ((State.haltRelay_startRequest _).trans (State.haltFetch_startRequest _))
  exact started.trans (State.haltPort_sameController started.ctl)
    ((State.haltStart_startRequest _).trans
      ((State.haltRelay_startRequest _).trans (State.haltFetch_startRequest _)))

end

end Sys2Proof.Machine
end

section
/-! The entry to HALT_DOWN (O51) and the starvation counter (O48), with what a same-page merge leaves of the
overlay (R16, R24, R62). -/

namespace Sys2Proof.Machine

/-! ## The overlay of a merged list -/

/-- The youngest byte for a member address in a list of entries (R62). -/
def State.overlayOf (s : State) (m : MemberIx) (a : MemberAddr) (l : List Entry) : Option Byte :=
  l.reverse.findSome? (s.entryByte m a)

theorem State.overlayByte_eq_overlayOf (s : State) (m : MemberIx) (a : MemberAddr) :
    s.overlayByte m a = s.overlayOf m a s.journal := s.overlayByte_eq m a

section
variable (s : State) (m : MemberIx) (a : MemberAddr)

theorem State.overlayOf_append (l k : List Entry) :
    s.overlayOf m a (l ++ k) = (s.overlayOf m a k).or (s.overlayOf m a l) := by
  simp [State.overlayOf, List.findSome?_append]

theorem State.overlayOf_singleton (e : Entry) : s.overlayOf m a [e] = s.entryByte m a e := by
  cases h : s.entryByte m a e <;> simp [State.overlayOf, h]

theorem State.overlayOf_cons (e : Entry) (l : List Entry) :
    s.overlayOf m a (e :: l) = (s.overlayOf m a l).or (s.entryByte m a e) := by
  rw [← List.singleton_append, State.overlayOf_append, State.overlayOf_singleton]

/-- Only the member, page and image of an entry count. -/
theorem State.overlayOf_map {f : Entry → Entry} (member : ∀ e, (f e).member = e.member)
    (page : ∀ e, (f e).page = e.page) (image : ∀ e, (f e).image = e.image) (l : List Entry) :
    s.overlayOf m a (l.map f) = s.overlayOf m a l := by
  have same : ∀ e, s.entryByte m a (f e) = s.entryByte m a e := fun e => by
    simp only [State.entryByte, member, page, image]
  induction l with
  | nil => rfl
  | cons e l ih => rw [List.map_cons, State.overlayOf_cons, State.overlayOf_cons, ih, same]

end

theorem State.overlayOf_congr {s t : State} {m : MemberIx} (h : t.info m = s.info m)
    (a : MemberAddr) (l : List Entry) : t.overlayOf m a l = s.overlayOf m a l := by
  have same : t.entryByte m a = s.entryByte m a := by
    funext e; simp only [State.entryByte, h]
  rw [State.overlayOf, State.overlayOf, same]

theorem State.entryByte_mergeOver {s : State} {m : MemberIx} {o e : Entry}
    (member : o.member = e.member) (page : o.page = e.page)
    (sized : e.member = m → o.image.length = e.image.length) (a : MemberAddr) :
    s.entryByte m a (o.mergeOver e) = (s.entryByte m a e).or (s.entryByte m a o) := by
  simp only [State.entryByte, Entry.mergeOver, member, page]
  split
  · rename_i key
    exact PageImage.byteAt_overlay (sized key.1) _
  · rfl

/-- An entry of the member holds one flag for each byte of its page, and one for the address's page is picked
or not as `pick` says. -/
structure State.MergesAs (s : State) (m : MemberIx) (a : MemberAddr) (sel : Entry → Bool) (pick : Bool)
    (e : Entry) : Prop where
  size : e.member = m → e.image.length = (s.info m).pageSize
  picked : e.member = m → e.page = a / (s.info m).pageSize → sel e = pick

theorem State.MergesAs.mergeOver {s : State} {m : MemberIx} {a : MemberAddr} {sel : Entry → Bool}
    {pick : Bool} {o e : Entry} (ho : s.MergesAs m a sel pick o) (he : s.MergesAs m a sel pick e)
    (stable : ∀ o e, sel (o.mergeOver e) = sel o) (member : o.member = e.member) :
    s.MergesAs m a sel pick (o.mergeOver e) where
  size := fun own => by
    have same : o.image.length = e.image.length :=
      (ho.size own).trans (he.size (member ▸ own)).symm
    exact (PageImage.length_overlay same).trans (ho.size own)
  picked := fun own page => (stable o e).trans (ho.picked own page)

/-- A merge that picks all or none of the entries for a page keeps what a read of it finds (R16, R24). -/
theorem State.overlayOf_mergeSamePage {s : State} {m : MemberIx} {a : MemberAddr}
    {sel : Entry → Bool} {l : List Entry} {pick : Bool}
    (stable : ∀ o e, sel (o.mergeOver e) = sel o)
    (good : ∀ e ∈ l, s.MergesAs m a sel pick e) :
    s.overlayOf m a (mergeSamePage sel l) = s.overlayOf m a l := by
  refine (mergeSamePage_induction (P := fun seen done =>
    (∀ x ∈ done, s.MergesAs m a sel pick x) ∧
    (done.Pairwise fun a b =>
      ¬(sel a = true ∧ sel b = true ∧ a.member = b.member ∧ a.page = b.page)) ∧
    s.overlayOf m a done = s.overlayOf m a seen) sel l ⟨nofun, .nil, rfl⟩ ?_).2.2
  intro seen done e he ⟨known, apart, same⟩
  have goodE := good e he
  obtain ⟨joined, fresh⟩ | ⟨before, o, after, rfl, joined, picked, also, member, page⟩ :=
    joinMerged_cases sel done e <;> rw [joined]
  · refine ⟨?_, ?_, by rw [State.overlayOf_append, State.overlayOf_append, same]⟩
    · intro x hx
      rcases List.mem_append.mp hx with old | new
      · exact known x old
      · exact List.mem_singleton.mp new ▸ goodE
    · refine List.pairwise_append.mpr ⟨apart, List.pairwise_singleton _ _, fun x hx y hy both => ?_⟩
      obtain ⟨px, py, sm, sp⟩ := List.mem_singleton.mp hy ▸ both
      exact fresh py x hx px ⟨sm, sp⟩
  · have goodO := known o (by simp)
    obtain ⟨front, back, between⟩ := List.pairwise_append.mp apart
    obtain ⟨first, tail⟩ := List.pairwise_cons.mp back
    have sized : e.member = m → o.image.length = e.image.length := fun own =>
      (goodO.size (member.trans own)).trans (goodE.size own).symm
    refine ⟨?_, ?_, ?_⟩
    · intro x hx
      rcases List.mem_append.mp hx with old | hx
      · exact known x (by simp [old])
      · rcases List.mem_cons.mp hx with rfl | old
        · exact goodO.mergeOver goodE stable member
        · exact known x (by simp [old])
    · refine List.pairwise_append.mpr ⟨front, List.pairwise_cons.mpr ⟨fun b hb both => ?_, tail⟩,
        fun x hx y hy both => ?_⟩
      · exact first b hb ⟨stable o e ▸ both.1, both.2⟩
      · rcases List.mem_cons.mp hy with rfl | later
        · exact between x hx o List.mem_cons_self ⟨both.1, stable o e ▸ both.2.1, both.2.2⟩
        · exact between x hx y (List.mem_cons_of_mem o later) both
    · rw [State.overlayOf_append, State.overlayOf_cons] at same
      rw [State.overlayOf_append, State.overlayOf_cons, State.entryByte_mergeOver member page sized,
        State.overlayOf_append, State.overlayOf_singleton, ← same]
      by_cases key : e.member = m ∧ e.page = a / (s.info m).pageSize
      · have picks : pick = true := (goodE.picked key.1 key.2).symm.trans picked
        have none_ : s.overlayOf m a after = none := by
          refine List.findSome?_eq_none_iff.mpr fun x hx => ?_
          have later := List.mem_reverse.mp hx
          rw [State.entryByte_eq_none_iff]
          intro own here
          have px := ((known x (by simp [later])).picked own here).trans picks
          exact absurd ⟨also, px, member.trans (key.1.trans own.symm),
            page.trans (key.2.trans here.symm)⟩ (first x later)
        simp [none_, Option.or_assoc]
      · have noE : s.entryByte m a e = none := if_neg key
        have noO : s.entryByte m a o = none := by
          simp only [State.entryByte, member, page]; exact if_neg key
        simp [noE, noO]

/-- A merge that picks nothing leaves the list. -/
theorem mergeSamePage_of_none {sel : Entry → Bool} {l : List Entry}
    (h : ∀ e ∈ l, sel e = false) : mergeSamePage sel l = l :=
  mergeSamePage_induction (P := fun seen done => done = seen) sel l rfl
    fun seen done e he same => by rw [joinMerged, h e he, same]; rfl

/-! ## The journal's return to PENDING (R52) -/

theorem State.returnToPending_noneInFlight {s : State} {e : Entry}
    (h : e ∈ s.returnToPending.journal) : e.isInFlight = false := by
  obtain ⟨o, -, -, -, state⟩ := State.mem_returnToPending h
  cases hs : o.state <;> simp_all [Entry.isInFlight, Entry.flight?]

theorem State.pointer_returnToPending (s : State) (m : MemberIx) :
    s.returnToPending.pointer m = s.pointer m := by
  simp only [State.pointer, State.returnToPending, List.getElem?_map]
  cases s.members[m.val]? <;> simp; split <;> rfl

/-- Where every member is strict no entries are merged. -/
theorem State.returnToPending_strict {s : State}
    (h : ∀ e ∈ s.journal, (s.info e.member).strict = true) :
    s.returnToPending.journal =
      s.journal.map fun e => if e.isInFlight then { e with state := .pending } else e := by
  refine mergeSamePage_of_none fun e he => ?_
  obtain ⟨o, ho, rfl⟩ := List.mem_map.mp he
  have strict := h o ho
  split <;> simp [strict]

/-- Of a HELD member no entry is merged, and of another loose member every entry is, so that a read finds what
it found (R24, R52, R62). -/
theorem State.overlayByte_returnToPending {s : State} (right : s.HeldCore)
    (sized : ∀ m, s.Sized m) (m : MemberIx) (a : MemberAddr) :
    s.returnToPending.overlayByte m a = s.overlayByte m a := by
  rw [State.overlayByte_eq_overlayOf, State.overlayByte_eq_overlayOf,
    State.overlayOf_congr (State.info_returnToPending s m)]
  have back := State.overlayOf_mergeSamePage (s := s) (m := m) (a := a)
    (sel := fun e => e.isPending && !(s.info e.member).strict)
    (pick := s.memberState m != .held && !(s.info m).strict)
    (l := s.journal.map fun e => if e.isInFlight then { e with state := .pending } else e)
    (fun _ _ => rfl) fun e he => ?_
  · refine back.trans (s.overlayOf_map m a ?_ ?_ ?_ _) <;> intro e <;> split <;> rfl
  · obtain ⟨o, ho, rfl⟩ := List.mem_map.mp he
    have held := right.held o ho
    have size := sized m o ho
    cases hs : o.state with
    | pending => 
      have same : o.isInFlight = false := by simp [Entry.isInFlight, Entry.flight?, hs]
      rw [if_neg (by simp [same])]
      refine ⟨size, fun own _ => ?_⟩
      have free : (s.memberState m == .held) = false := by simpa [Entry.isHeld, hs, own] using held.symm
      simp [Entry.isPending, hs, own, bne, free]
    | inFlight f =>
      have flying : o.isInFlight = true := by simp [Entry.isInFlight, Entry.flight?, hs]
      rw [if_pos flying]
      refine ⟨size, fun own _ => ?_⟩
      have own : o.member = m := own
      have free : (s.memberState m == .held) = false := by simpa [Entry.isHeld, hs, own] using held.symm
      simp [Entry.isPending, own, bne, free]
    | held =>
      have same : o.isInFlight = false := by simp [Entry.isInFlight, Entry.flight?, hs]
      rw [if_neg (by simp [same])]
      refine ⟨size, fun own _ => ?_⟩
      have is_ : (s.memberState m == .held) = true := by simpa [Entry.isHeld, hs, own] using held.symm
      simp [Entry.isPending, hs, bne, is_]

/-! ## What the entry to HALT_DOWN leaves (R133) -/

section
variable (s : State)

theorem State.reports_sameBut :
    s.haltBegun.sameBut s.enterHalt [.os, .ds, .log, .read, .up, .port] := by
  have a := State.sameBut_mono (l' := [.os, .ds, .log, .read, .up, .port])
    s.haltBegun.haltFetch_sameBut (by simp)
  have b := State.sameBut_mono (l' := [.os, .ds, .log, .read, .up, .port])
    s.haltBegun.haltFetch.haltRelay_sameBut (by simp)
  have c := State.sameBut_mono (l' := [.os, .ds, .log, .read, .up, .port])
    s.haltBegun.haltFetch.haltRelay.haltStart_sameBut (by simp)
  have d := State.sameBut_mono (l' := [.os, .ds, .log, .read, .up, .port])
    s.haltBegun.haltFetch.haltRelay.haltStart.haltPort_sameBut (by simp)
  exact State.sameBut_trans a (State.sameBut_trans b (State.sameBut_trans c d))

theorem State.enterHalt_sameBut :
    s.sameBut s.enterHalt [.os, .ds, .members, .journal, .read, .up, .log, .port] := by
  have begun : s.sameBut s.haltBegun [.os, .ds, .members, .journal, .read, .up, .log, .port] := by
    intro p hp
    cases p <;> simp_all [State.sameAt, State.haltBegun, State.returnToPending, State.dropCommitRequests,
      State.record]
  exact State.sameBut_trans begun (State.sameBut_mono s.reports_sameBut (by simp))

theorem State.enterHalt_journal : s.enterHalt.journal = s.returnToPending.journal :=
  s.reports_sameBut .journal (by simp)

theorem State.enterHalt_members : s.enterHalt.members = s.returnToPending.members :=
  s.reports_sameBut .members (by simp)

theorem State.haltFetch_os : s.haltFetch.os = s.os := by
  unfold State.haltFetch
  split
  · split
    · simp [State.fetchFailed]
    · rfl
  · rfl

theorem State.haltRelay_os : s.haltRelay.os = s.os := by
  unfold State.haltRelay; split <;> rfl

theorem State.haltPort_os : s.haltPort.os = s.os := by
  unfold State.haltPort
  split
  · split <;> simp [State.refuse]
  · split <;> simp [State.refuse]
  all_goals simp [State.refuse]

theorem State.enterHalt_part :
    s.enterHalt.os.part = .haltDown ∧ s.enterHalt.os.ret = some s.os.part := by
  rw [State.enterHalt_eq, State.haltPort_os]
  obtain ⟨part, ret⟩ := State.haltStart_part s.haltBegun.haltFetch.haltRelay
  rw [part, ret, State.haltRelay_os, State.haltFetch_os]
  exact ⟨rfl, rfl⟩

/-- The controller is HALTED with its counter 0, and no commit request waits (R123, R133). -/
theorem State.enterHalt_ds :
    s.enterHalt.ds.ctl = .halted (s.now + haltRetry) ∧ s.enterHalt.ds.drive = s.ds.drive ∧
      s.enterHalt.ds.starvation = 0 ∧ ∀ r ∈ s.enterHalt.ds.waiting, r.isCommit = false := by
  obtain ⟨ctl, starvation, drive, -, waiting⟩ := s.enterHalt_sameController
  refine ⟨ctl, drive, starvation, fun r hr => ?_⟩
  rcases waiting r hr with old | asks
  · simpa using (List.mem_filter.mp old).2
  · have asks : s.startRequest = some r := asks
    simp only [State.startRequest] at asks
    split at asks <;> cases asks <;> rfl

end

/-! ## The reports, one by one -/

/-- A request that a report withdraws does not wait after the halt, unless start-up asks for it. -/
theorem State.SameController.not_waiting {s t : State} (h : s.SameController t) {r : Request}
    (k : r ∉ s.ds.waiting) (other : s.startRequest ≠ some r) : r ∉ t.ds.waiting :=
  fun hr => (h.waiting r hr).elim k other

theorem State.startRequest_isService {s : State} {r : Request} (h : s.startRequest = some r) :
    r = .descriptorRead .startUp ∨ ∃ m, r = .probe m := by
  simp only [State.startRequest] at h
  split at h <;> cases h
  · exact .inl rfl
  · exact .inr ⟨_, rfl⟩

section
variable {s : State}

/-- The state when the start-up access is dealt with. -/
theorem State.haltRelay_ctl : s.haltBegun.haltFetch.haltRelay.ds.ctl = .halted (s.now + haltRetry) := by
  have fetched := State.haltFetch_sameController s.haltBegun_ctl
  exact (State.haltRelay_sameController fetched.ctl).ctl.trans fetched.ctl

/-- What waits after the two reports of the upstream side still waits, or has been asked for by start-up. -/
theorem State.enterHalt_afterRelay :
    s.haltBegun.haltFetch.haltRelay.SameController s.enterHalt := by
  have started := State.haltStart_sameController s.haltBegun.haltFetch.haltRelay
  exact started.trans (State.haltPort_sameController (started.ctl.trans State.haltRelay_ctl))
    (State.haltStart_startRequest _)

theorem State.enterHalt_up : s.enterHalt.up = s.haltBegun.haltFetch.haltRelay.up := by
  rw [State.enterHalt_eq]
  exact (State.haltPort_sameBut _ .up (by simp)).trans (State.haltStart_sameBut _ .up (by simp))

theorem State.enterHalt_read : s.enterHalt.read = s.haltBegun.haltFetch.read := by
  rw [State.enterHalt_eq]
  exact (State.haltPort_sameBut _ .read (by simp)).trans
    ((State.haltStart_sameBut _ .read (by simp)).trans (State.haltRelay_sameBut _ .read (by simp)))

theorem State.enterHalt_log : s.enterHalt.log = s.haltBegun.haltFetch.log := by
  rw [State.enterHalt_eq]
  exact (State.haltPort_sameBut _ .log (by simp)).trans
    ((State.haltStart_sameBut _ .log (by simp)).trans (State.haltRelay_sameBut _ .log (by simp)))

/-- A relay that waits for its grant is refused (R108). -/
theorem State.enterHalt_relayWait {dev : DevAddr} {inRun : Bool} {t0 : Micros}
    (h : s.up.phase = .relayWait dev inRun t0) :
    s.enterHalt.up.phase = .notAddressed ∧ s.enterHalt.up.drive = [.nack] ∧
      .relay ∉ s.enterHalt.ds.waiting := by
  have phase : s.haltBegun.haltFetch.up.phase = .relayWait dev inRun t0 :=
    (State.haltFetch_phase _).trans h
  have refused : s.haltBegun.haltFetch.haltRelay = s.haltBegun.haltFetch.refuseRelay := by
    simp [State.haltRelay, phase]
  refine ⟨by rw [State.enterHalt_up, refused]; rfl, by rw [State.enterHalt_up, refused]; rfl, ?_⟩
  refine State.enterHalt_afterRelay.not_waiting (by simp [refused, State.refuseRelay]) fun asks => ?_
  rcases State.startRequest_isService asks with eq | ⟨m, eq⟩ <;> cases eq

/-- A read that waits for its fetch enters UNDERRUN with its record (R69, R76). -/
theorem State.enterHalt_waitingRead {o : OpenRead} {t0 : Micros} {f : Fetch} (h : s.read = some o)
    (k : o.cond = .waiting t0 f) :
    s.enterHalt.read = some { o with cond := .underrun, buffer := none, recorded := true } ∧
      .fetch ∉ s.enterHalt.ds.waiting ∧
      (s.up.phase = .read →
        s.enterHalt.up.drive = [.byte 0xFF] ∧ s.enterHalt.up.idle = some s.now) ∧
      s.enterHalt.log =
        (if o.recorded then (s.record .busStuck none none 0).log
        else
          pushRecord
            { stamp := s.stamp, kind := .readUnderrun, member := some o.member,
              page := some (s.pointer o.member / (s.info o.member).pageSize), detail := 2,
              lost := false, read := false } (s.record .busStuck none none 0).log) := by
  have waits : s.haltBegun.read = some o := h
  have eq := State.haltFetch_waiting waits k
  have waits' : ((s.haltBegun.withdraw .fetch).say []).read = some o := h
  refine ⟨?_, ?_, fun reading => ?_, ?_⟩
  · rw [State.enterHalt_read, eq, State.underrun_read waits']
  · refine (State.SameController.trans (State.haltRelay_sameController (x := s.now + haltRetry) ?_)
      State.enterHalt_afterRelay (State.haltRelay_startRequest _)).not_waiting ?_ fun asks => ?_
    · exact (State.haltFetch_sameController s.haltBegun_ctl).ctl
    · rw [eq]; simp
    · rcases State.startRequest_isService asks with eq | ⟨m, eq⟩ <;> cases eq
  · have phase : s.haltBegun.haltFetch.up.phase = .read := (State.haltFetch_phase _).trans reading
    rw [State.enterHalt_up, State.haltRelay_other (by rw [phase]; nofun), eq,
      State.underrun_up waits']
    exact ⟨rfl, rfl⟩
  · rw [State.enterHalt_log, eq, State.underrun_log waits']
    have pointer : ((s.haltBegun.withdraw .fetch).say []).pointer o.member = s.pointer o.member :=
      State.pointer_returnToPending s o.member
    have info : ((s.haltBegun.withdraw .fetch).say []).info o.member = s.info o.member :=
      State.info_returnToPending s o.member
    rw [pointer, info]; rfl

/-- A read that does not wait for a fetch goes on, with no record (R69). -/
theorem State.enterHalt_otherRead (h : ∀ o t0 f, s.read = some o → o.cond ≠ .waiting t0 f) :
    s.enterHalt.read = s.read ∧ s.enterHalt.log = (s.record .busStuck none none 0).log := by
  have same : s.haltBegun.haltFetch = s.haltBegun := State.haltFetch_other h
  exact ⟨by rw [State.enterHalt_read, same]; rfl, by rw [State.enterHalt_log, same]; rfl⟩

/-! ### The access of start-up -/

theorem State.enterHalt_os : s.enterHalt.os = s.haltBegun.haltFetch.haltRelay.haltStart.os := by
  rw [State.enterHalt_eq, State.haltPort_os]

theorem State.haltRelay_start : s.haltBegun.haltFetch.haltRelay.os.start = s.os.start := by
  rw [State.haltRelay_os, State.haltFetch_os]; rfl

theorem State.startAccess_descriptorRead {a : Access} (h : s.os.start = some (.descriptorRead a)) :
    s.startAccess = some a := by simp [State.startAccess, h]

theorem State.startAccess_probing {m : MemberIx} {a : Access}
    (h : s.os.start = some (.probing m a)) : s.startAccess = some a := by
  simp [State.startAccess, h]

/-- The port withdraws its own requests only. -/
theorem State.mem_haltPort_waiting {r : Request} (service : s.startRequest = some r)
    (h : r ∈ s.ds.waiting) : r ∈ s.haltPort.ds.waiting := by
  have refused : ∀ q, r ≠ q → r ∈ ((s.withdraw q).refuse reasonAccessFailed).ds.waiting :=
    fun q other => by simp [State.refuse, h, other]
  have apart : r ≠ .descriptorRead .port ∧ r ≠ .descriptorWrite ∧ r ≠ .descriptorPoll := by
    rcases State.startRequest_isService service with rfl | ⟨m, rfl⟩ <;> simp
  obtain ⟨read, write, poll⟩ := apart
  unfold State.haltPort
  split
  · split
    · exact refused _ read
    · exact h
  · split
    · exact refused _ read
    · exact h
  · exact refused _ write
  · exact refused _ poll
  · exact h

/-- The access that asked before the halt asks again after it (R84, R133). -/
theorem State.enterHalt_asks {a : Access} {r : Request}
    (h : s.haltBegun.haltFetch.haltRelay.startAccess = some a)
    (asks : s.haltBegun.haltFetch.haltRelay.startRequest = some r)
    (k : ∀ due, a.asking ≠ .dueAt due) :
    r ∈ s.enterHalt.ds.waiting ∧
      s.enterHalt.os =
        (s.haltBegun.haltFetch.haltRelay.setStartAccess { asking := .waiting, window := none }).os := by
  have eq := (State.haltStart_asks h k).trans (State.askStart_eq asks none)
  refine ⟨?_, by rw [State.enterHalt_os, eq, State.raise_os]⟩
  rw [State.enterHalt_eq]
  refine State.mem_haltPort_waiting ((State.haltStart_startRequest _).trans asks) ?_
  rw [eq, State.mem_raise]; exact .inl rfl

theorem State.enterHalt_descriptorRead {a : Access} (h : s.os.start = some (.descriptorRead a)) :
    (∀ due, a.asking = .dueAt due →
      s.enterHalt.os.start = some (.descriptorRead { asking := .dueAt due, window := none })) ∧
    ((∀ due, a.asking ≠ .dueAt due) → .descriptorRead .startUp ∈ s.enterHalt.ds.waiting ∧
      s.enterHalt.os.start = some (.descriptorRead { asking := .waiting, window := none })) := by
  have start := State.haltRelay_start.trans h
  have access := State.startAccess_descriptorRead start
  refine ⟨fun due k => ?_, fun k => ?_⟩
  · rw [State.enterHalt_os, State.haltStart_due access k]
    exact State.setStartAccess_descriptorRead start _
  · obtain ⟨waits, os⟩ := State.enterHalt_asks access (State.startRequest_descriptorRead start) k
    exact ⟨waits, by rw [os]; exact State.setStartAccess_descriptorRead start _⟩

theorem State.enterHalt_probing {m : MemberIx} {a : Access} (h : s.os.start = some (.probing m a)) :
    (∀ due, a.asking = .dueAt due →
      s.enterHalt.os.start = some (.probing m { asking := .dueAt due, window := none })) ∧
    ((∀ due, a.asking ≠ .dueAt due) → .probe m ∈ s.enterHalt.ds.waiting ∧
      s.enterHalt.os.start = some (.probing m { asking := .waiting, window := none })) := by
  have start := State.haltRelay_start.trans h
  have access := State.startAccess_probing start
  refine ⟨fun due k => ?_, fun k => ?_⟩
  · rw [State.enterHalt_os, State.haltStart_due access k]
    exact State.setStartAccess_probing start _
  · obtain ⟨waits, os⟩ := State.enterHalt_asks access (State.startRequest_probing start) k
    exact ⟨waits, by rw [os]; exact State.setStartAccess_probing start _⟩

/-! ### The descriptor access of a command -/

theorem State.haltStart_port : s.haltBegun.haltFetch.haltRelay.haltStart.port = s.port :=
  (State.haltStart_sameBut _ .port (by simp)).trans
    ((State.haltRelay_sameBut _ .port (by simp)).trans (State.haltFetch_sameBut _ .port (by simp)))

/-- A command whose access waits ends with ACCESS_FAILED (R133, R186, R190). -/
theorem State.refuse_withdraw_port {u : State} {k : Command} (h : u.port.cmd = some k) (r : Request) :
    ((u.withdraw r).refuse reasonAccessFailed).port = u.port.ended k .refused [19] ∧
      r ∉ ((u.withdraw r).refuse reasonAccessFailed).ds.waiting := by
  have cmd : (u.withdraw r).port.cmd = some k := by simpa using h
  refine ⟨(State.finish_port cmd _ _).trans (by rw [State.withdraw_port]; rfl), ?_⟩
  simp [State.refuse]

theorem State.enterHalt_port {k : Command} (h : s.port.cmd = some k) :
    (∀ a mk, (mk = Job.readDescriptor ∨ ∃ image, mk = Job.readBack image) →
      k.job = mk a → a.asking = .waiting ∨ a.asking = .afterClear →
      s.enterHalt.port = s.port.ended k .refused [19] ∧
        .descriptorRead .port ∉ s.enterHalt.ds.waiting) ∧
    (∀ image b first, k.job = .writeBlock image b (.writing .waiting first) →
      s.enterHalt.port = s.port.ended k .refused [19] ∧ .descriptorWrite ∉ s.enterHalt.ds.waiting) ∧
    ∀ image b stopAt, k.job = .writeBlock image b (.polling .waiting stopAt) →
      s.enterHalt.port = s.port.ended k .refused [19] ∧
        .descriptorPoll ∉ s.enterHalt.ds.waiting := by
  have same : s.haltBegun.haltFetch.haltRelay.haltStart.port = s.port := State.haltStart_port
  rw [State.enterHalt_eq]
  generalize s.haltBegun.haltFetch.haltRelay.haltStart = u at same ⊢
  have cmd : u.port.cmd = some k := same ▸ h
  have job : u.job = some k.job := by simp [State.job, cmd]
  refine ⟨fun a mk form eq asking => ?_, fun image b first eq => ?_, fun image b stopAt eq => ?_⟩
  · have halted : u.haltPort = (u.withdraw (.descriptorRead .port)).refuse reasonAccessFailed := by
      rcases form with rfl | ⟨image, rfl⟩ <;> simp [State.haltPort, job, eq, asking]
    rw [halted, ← same]; exact State.refuse_withdraw_port cmd _
  · have halted : u.haltPort = (u.withdraw .descriptorWrite).refuse reasonAccessFailed := by
      simp [State.haltPort, job, eq]
    rw [halted, ← same]; exact State.refuse_withdraw_port cmd _
  · have halted : u.haltPort = (u.withdraw .descriptorPoll).refuse reasonAccessFailed := by
      simp [State.haltPort, job, eq]
    rw [halted, ← same]; exact State.refuse_withdraw_port cmd _

end

end Sys2Proof.Machine
end

section
/-! A bus clear that fails (O51). -/

namespace Sys2Proof.Machine

/-! ## A bus clear that fails (R132, R133) -/

/-- The state when a bus clear has failed: its time, and the controller's latest move. -/
def State.clearedAt (s : State) (at_ : Micros) (acts : List DownDrive) : State :=
  { s with now := at_, ds := { s.ds with drive := acts, moved := at_ } }

/-- Each row of a failed bus clear is one failure, at its time and with its pulses. -/
theorem exec_busClearFailure {s : State} {c : Instr} {at_ : Micros} {acts : List DownDrive}
    (running : s.inReset = false) (clearing : s.ds.ctl = .clearing)
    (row : (∃ n, n ≤ 9 ∧ c = .busClearSclTimeout n ∧ at_ = max s.now (s.ds.moved + 1000) ∧
          acts = List.replicate n .pulse ++ [.release]) ∨
        (∃ n, n ≤ 9 ∧ c = .busClearEnd n false ∧ at_ = max s.now (s.ds.moved + 1000) ∧
          acts = List.replicate n .pulse ++ [.stop, .release]) ∨
        ∃ n high, 9 < n ∧ c = .busClearEnd n high ∧ at_ = s.now ∧
          acts = List.replicate 9 .pulse ++ [.release]) :
    exec c s = .next (s.clearedAt at_ acts).clearFailed.settle := by
  rcases row with ⟨n, few, rfl, rfl, rfl⟩ | ⟨n, few, rfl, rfl, rfl⟩ | ⟨n, high, many, rfl, rfl, rfl⟩
  · have pulses : min n Config.clearPulses = n := min_eq_left few
    refine exec_next (execBusClearSclTimeout s n) rfl running ?_
    rw [if_pos clearing, pulses]; rfl
  · have enough : n ≤ Config.clearPulses := few
    refine exec_next (execBusClearEnd n false s) rfl running ?_
    rw [if_pos clearing, if_pos enough]; rfl
  · have tooMany : ¬ n ≤ Config.clearPulses := Nat.not_le.mpr many
    refine exec_next (execBusClearEnd n high s) rfl running ?_
    rw [if_pos clearing, if_neg tooMany]; rfl

theorem State.clearFailed_haltDown {s : State} (h : s.os.part = .haltDown) :
    s.clearFailed = s.setCtl (.halted (s.now + haltRetry)) := if_pos h

theorem State.clearFailed_other {s : State} (h : s.os.part ≠ .haltDown) :
    s.clearFailed = s.enterHalt := if_neg h

/-- Settles O51. -/
theorem busClearFailureHaltsTheBus : Obligations.BusClearFailureHaltsTheBus := by
  intro s c at_ acts running
  refine ⟨fun clearing row => ?_, fun t0 halted => ?_⟩
  · rw [exec_busClearFailure running clearing row]
    refine ⟨fun down => ⟨_, rfl, ?_⟩,
      fun up => ⟨_, ((s.clearedAt at_ acts).record .busStuck none none 0).log, rfl, ?_⟩⟩
    · have down : (s.clearedAt at_ acts).os.part = .haltDown := down
      rw [State.clearFailed_haltDown down]
      refine ⟨rfl, rfl, ?_⟩
      refine State.sameBut_trans ?_ (State.sameBut_mono (State.sameBut_settle _) (by simp))
      intro p hp; cases p <;> simp_all [State.sameAt, State.clearedAt]
    · have up : (s.clearedAt at_ acts).os.part ≠ .haltDown := up
      rw [State.clearFailed_other up]
      obtain ⟨part, ret⟩ := (s.clearedAt at_ acts).enterHalt_part
      obtain ⟨ctl, drive, starvation, noCommit⟩ := (s.clearedAt at_ acts).enterHalt_ds
      have sameBut := (s.clearedAt at_ acts).enterHalt_sameBut
      have table := (s.clearedAt at_ acts).enterHalt_members
      have list := (s.clearedAt at_ acts).enterHalt_journal
      refine ⟨sameBut .now (by simp), part, ret, ctl, drive, starvation, noCommit, fun e he => ?_,
        fun k => ?_, fun strict => ?_, fun right sized m a => ?_, rfl,
        fun dev inRun t0 => State.enterHalt_relayWait (s := s.clearedAt at_ acts),
        fun o t0 f => State.enterHalt_waitingRead (s := s.clearedAt at_ acts),
        State.enterHalt_otherRead (s := s.clearedAt at_ acts),
        fun a => State.enterHalt_descriptorRead (s := s.clearedAt at_ acts),
        fun m a => State.enterHalt_probing (s := s.clearedAt at_ acts),
        fun k => State.enterHalt_port (s := s.clearedAt at_ acts), ?_⟩
      · exact State.returnToPending_noneInFlight (list ▸ he)
      · exact (State.memberState_congr table k).trans
          ((s.clearedAt at_ acts).memberState_returnToPending k)
      · exact list.trans (State.returnToPending_strict strict)
      · have core := right.core
        have core' : (s.clearedAt at_ acts).HeldCore :=
          ⟨core.rows, core.held, core.place, core.writeRow, core.writePlace, core.landing,
            core.starting⟩
        exact (State.overlayByte_congr list table m a).trans
          (State.overlayByte_returnToPending core' sized m a)
      · refine State.sameBut_trans ?_ (State.sameBut_mono (State.sameBut_settle _) (by simp))
        refine State.sameBut_trans ?_ (State.sameBut_mono sameBut (by simp))
        intro p hp; cases p <;> simp_all [State.sameAt, State.clearedAt]
  · refine ⟨_, exec_next (execHaltRetryTimer s) rfl running (by simp [halted]; rfl), rfl, rfl, ?_⟩
    refine State.sameBut_trans ?_ (State.sameBut_mono (State.sameBut_settle _) (by simp))
    intro p hp; cases p <;> simp_all [State.sameAt]

end Sys2Proof.Machine
end

section
/-! The starvation counter (O48). -/

namespace Sys2Proof.Machine

@[simp] theorem State.resetPart_ds (s : State) (mode : Mode) (plus : Nat) :
    (s.resetPart mode plus).ds = State.reset.ds := by
  unfold State.resetPart; dsimp only; split <;> rfl

/-- Settles O48. -/
theorem starvationCounterFollowsGrants : Obligations.StarvationCounterFollowsGrants := by
  intro s r n running count
  have granted : (s.grant r).ds.starvation = n :=
    (State.grant_starvation s r).trans count.symm
  refine ⟨fun free chosen => ⟨?_, ?_, fun starved waits => ?_⟩,
    fun t0 opening => ⟨fun inTime => ?_, ?_, ?_, rfl⟩, fun pulses clearing up => ?_, ⟨_, rfl, rfl⟩,
    ⟨_, rfl, by simp; rfl⟩, fun p o rest out place armed => ?_⟩
  · exact ⟨_, exec_next (execArbiterChoice true s) rfl running (by simp [free, chosen]), granted⟩
  · exact ⟨_, exec_next (u := s.openFor r) (execArbiterChoice false s) rfl running
      (by simp [free, chosen]), rfl⟩
  · rcases State.choice_cases chosen with ⟨commit, -⟩ | ⟨-, never⟩ | ⟨-, none_, -⟩
    · obtain ⟨i, e, f, -, rfl, -⟩ := State.commitChoice_spec commit
      exact f.stage.request_isCommit e.member
    · exact absurd ⟨starved, waits⟩ never
    · rw [none_] at waits; cases waits
  · exact ⟨_, exec_next (execLinesHighAtCheck s) rfl running
      (by simp [opening, show s.now ≤ t0 + lineCheckLimit from inTime]), granted⟩
  · exact ⟨_, exec_next (u := ((s.advanceTo (t0 + lineCheckLimit)).setCtl .clearing).drive [.release])
      (execStuckBusFound s) rfl running (by simp [opening]), rfl⟩
  · simp [State.withdraw, opening]
  · have up' : ∀ acts, (s.awaitRise.drive acts).os.part ≠ .haltDown := fun _ => up
    refine ⟨_, exec_next (execBusClearSclTimeout s pulses) rfl running (if_pos clearing), ?_, ?_⟩
    · rw [State.clearFailed_other (up' _)]; exact (State.enterHalt_part _).1
    · rw [State.clearFailed_other (up' _)]; exact (State.enterHalt_ds _).2.2.1
  · have armed' : ∀ tx, ({ s with port := { s.port with tx := tx } } : State).job = some .resetArmed :=
      fun _ => armed
    refine ⟨_, exec_next (execResponseSent p s) rfl running (by simp only [out, place]; rfl), ?_⟩
    rw [State.commandSent, if_pos (armed' rest)]
    change (State.resetPart _ _ _).ds.starvation = 0
    simp; rfl

end Sys2Proof.Machine
end

section
/-! A stretch timeout or a collision, and its report to the holder (O49). -/

namespace Sys2Proof.Machine

/-- A command whose event the state does not have changes nothing. `r` is the command's own meaning, as in
exec_next. -/
theorem exec_void (r : Result) {s : State} {body : State → Option State}
    (meaning : r = s.take body) (noEvent : body s = none) : r = .next s :=
  meaning.trans (State.take_none noEvent)

/-! ## The row of a fault (R127, R128) -/

/-- A fault row at a state: its command, the detail of its record, and the state at its time. -/
def FaultRow (s v : State) (c : Instr) (after : Micros) (d : Byte) : Prop :=
  c = .stretchTimeout after ∧ d = 1 ∧ v = { s with now := max s.now (s.ds.moved + after + 25000) } ∨
    c = .collision ∧ d = 2 ∧ v = s

/-- The fault counts for the holder: the row's own condition on the move that goes on. -/
def FaultCounts (v : State) (c : Instr) (h : Holder) : Prop :=
  (c ≠ .collision → v.stretchable h = true) ∧ (c = .collision → v.compares h = true)

def FaultVoid (v : State) (c : Instr) (h : Holder) : Prop :=
  (c ≠ .collision → v.stretchable h = false) ∧ (c = .collision → v.compares h = false)

section
variable {s v : State} {c : Instr} {after : Micros} {d : Byte} {h : Holder}

theorem FaultRow.timed (row : FaultRow s v c after d) : ∃ n, v = { s with now := n } := by
  rcases row with ⟨-, -, rfl⟩ | ⟨-, -, rfl⟩ <;> exact ⟨_, rfl⟩

/-- A fault that counts: the fault of the bus is taken, and the holder is told (R129). -/
theorem FaultRow.exec_aborts (row : FaultRow s v c after d) (running : s.inReset = false)
    (busy : s.ds.ctl = .busy h) (counts : FaultCounts v c h) :
    exec c s = .next ((v.faultBus h.member h.page d.toNat).reportAbort h.req).settle := by
  rcases row with ⟨rfl, rfl, rfl⟩ | ⟨rfl, rfl, rfl⟩
  · refine exec_next (execStretchTimeout s after) rfl running ?_
    have stretches := counts.1 nofun
    simp only [busy]; exact if_pos stretches
  · refine exec_next (execCollision v) rfl running ?_
    simp only [busy]; exact if_pos (counts.2 rfl)

theorem FaultRow.exec_ignored (row : FaultRow s v c after d) (busy : s.ds.ctl = .busy h)
    (void : FaultVoid v c h) : exec c s = .next s := by
  rcases row with ⟨rfl, rfl, rfl⟩ | ⟨rfl, rfl, rfl⟩
  · refine exec_void (execStretchTimeout s after) rfl ?_
    have stretches := void.1 nofun
    simp only [busy]; exact if_neg (Bool.eq_false_iff.mp stretches)
  · refine exec_void (execCollision v) rfl ?_
    simp only [busy]; exact if_neg (Bool.eq_false_iff.mp (void.2 rfl))

/-- At the STOP that ended a relay the fault has no holder (R129). -/
theorem FaultRow.exec_stop (row : FaultRow s v c after d) (running : s.inReset = false)
    (free : s.ds.ctl = .free) (stop : v.stopOpen = true) :
    exec c s = .next (v.faultBus none none d.toNat).settle := by
  rcases row with ⟨rfl, rfl, rfl⟩ | ⟨rfl, rfl, rfl⟩
  · refine exec_next (execStretchTimeout s after) rfl running ?_
    simp only [free]; exact if_pos stop
  · refine exec_next (execCollision v) rfl running ?_
    simp only [free]; exact if_pos stop

theorem FaultRow.exec_noStop (row : FaultRow s v c after d) (free : s.ds.ctl = .free)
    (stop : v.stopOpen = false) : exec c s = .next s := by
  rcases row with ⟨rfl, rfl, rfl⟩ | ⟨rfl, rfl, rfl⟩
  · refine exec_void (execStretchTimeout s after) rfl ?_
    simp only [free]; exact if_neg (Bool.eq_false_iff.mp stop)
  · refine exec_void (execCollision v) rfl ?_
    simp only [free]; exact if_neg (Bool.eq_false_iff.mp stop)

end

/-! ## Whether the fault counts -/

section
variable {s v : State} {c : Instr} {h : Holder}

theorem FaultCounts.of_not_relay (other : h.req ≠ .relay) : FaultCounts v c h := by
  obtain ⟨req, txn, member, page, since⟩ := h
  cases req <;> simp_all [FaultCounts, State.stretchable, State.compares]

variable {q : OpenRelay} (relays : h.req = .relay) (phase : v.up.phase = .relay q)
include relays phase

theorem State.stretchable_relay :
    v.stretchable h =
      ((q.mark == .clear && (q.step == .addressSent || q.step == .byteSent || q.step == .readDue)) ||
        v.relayFinishing q) := by
  simp [State.stretchable, relays, phase]

theorem State.compares_relay :
    v.compares h =
      ((q.mark == .clear && (q.step == .addressSent || q.step == .byteSent)) ||
        (q.mark == .prot && v.relayFinishing q)) := by
  simp [State.compares, relays, phase]

end

/-! ## What the holder is told (R129) -/

section
variable {u : State}

/-- A read that waits for the fetch in progress enters UNDERRUN. -/
theorem State.abortFetch_eq {o : OpenRead} {t0 : Micros} {f : Fetch} (h : u.read = some o)
    (k : o.cond = .waiting t0 f) (progress : f.state = .inProgress) :
    u.abortFetch = (u.say []).underrun 2 := by
  simp [State.abortFetch, h, k, progress, State.fetchFailed]

/-- The relay takes the mark FAILED, and a byte or an answer that the host waits for is given. -/
theorem State.failRelay_byte {q : OpenRelay} (h : u.up.phase = .relay q)
    (step : q.step = .addressSent ∨ q.step = .byteSent) :
    u.failRelay =
      ((u.setPhase (.relay { q with mark := .failed, step := .hostTurn })).say [.nack]).startIdle := by
  rcases step with step | step <;> simp [State.failRelay, h, step]

theorem State.failRelay_readDue {q : OpenRelay} (h : u.up.phase = .relay q)
    (step : q.step = .readDue) :
    u.failRelay =
      ((u.setPhase (.relay { q with mark := .failed, step := .readShown })).say
        [.byte 0xFF]).startIdle := by
  simp [State.failRelay, h, step]

theorem State.failRelay_other {q : OpenRelay} (h : u.up.phase = .relay q)
    (step : q.step ≠ .addressSent ∧ q.step ≠ .byteSent ∧ q.step ≠ .readDue) :
    u.failRelay = u.setPhase (.relay { q with mark := .failed }) := by
  obtain ⟨address, byte, due⟩ := step
  cases hs : q.step <;> simp_all [State.failRelay]

theorem State.abortStart_eq {a : Access} {r : Request} (h : u.startAccess = some a)
    (progress : a.asking = .inProgress) (asks : u.startRequest = some r) :
    u.abortStart r = u.setStartAccess { a with asking := .afterClear } := by
  simp [State.abortStart, h, progress, asks]

theorem State.abortPortRead_eq {k : Command} {a : Access} {mk : Access → Job}
    (form : mk = Job.readDescriptor ∨ ∃ image, mk = Job.readBack image)
    (cmd : u.port.cmd = some k) (job : k.job = mk a) (progress : a.asking = .inProgress) :
    u.abortPortRead = u.setJob (mk { a with asking := .afterClear }) := by
  rcases form with rfl | ⟨image, rfl⟩ <;>
    simp [State.abortPortRead, State.portAccess, State.setPortAccess, State.job, cmd, job, progress]

theorem State.abortBlock_eq {k : Command} {image : List Byte} {b : Nat} {st : BlockStep}
    (cmd : u.port.cmd = some k) (job : k.job = .writeBlock image b st) :
    u.abortBlock = u.refuse reasonAccessFailed := by
  simp [State.abortBlock, State.job, cmd, job]

end

theorem State.failRelay_sameBut (s : State) : s.sameBut s.failRelay [.up] := by
  intro p hp
  unfold State.failRelay
  cases p <;> (split <;> (try split) <;> simp_all [State.sameAt])

/-! ## A fault in a transaction -/

section
variable {s v u : State} {c : Instr} {after : Micros} {d : Byte} {h : Holder}

/-- The state with the fault of the bus taken, and before its holder is told. -/
def Faulted (v u : State) (h : Holder) (d : Byte) : Prop :=
  u = v.faultBus h.member h.page d.toNat

theorem Faulted.sameBut (fault : Faulted v u h d) : v.sameBut u [.ds, .log] := by
  rw [show u = _ from fault]
  intro p hp; cases p <;> simp_all [State.sameAt, State.faultBus]

theorem Faulted.os (fault : Faulted v u h d) : u.os = v.os := by rw [show u = _ from fault]; rfl

/-- What the report leaves, with the fault's own parts. -/
theorem Faulted.frame (fault : Faulted v u h d) {t : State} {l : List Part} (told : u.sameBut t l) :
    v.sameBut t.settle (l ++ [.ds, .log]) :=
  State.sameBut_trans (State.sameBut_mono fault.sameBut (by simp))
    (State.sameBut_trans (State.sameBut_mono told fun _ => List.mem_append_left _)
      (State.sameBut_mono (State.sameBut_settle _) (by simp)))

variable (row : FaultRow s v c after d) (running : s.inReset = false) (busy : s.ds.ctl = .busy h)
  (fault : Faulted v u h d)
include row running busy fault

theorem FaultRow.exec_tells (counts : FaultCounts v c h) :
    exec c s = .next (u.reportAbort h.req).settle := by
  rw [show u = _ from fault]; exact row.exec_aborts running busy counts

variable (req : h.req = .relay)
include req

theorem FaultRow.exec_failRelay (counts : FaultCounts v c h) :
    exec c s = .next u.failRelay.settle := by
  have tells := row.exec_tells running busy fault counts
  rwa [req] at tells

variable {q : OpenRelay} (phase : v.up.phase = .relay q)
include phase

/-- A fault in a relay that waits for no byte and no answer gives it the mark FAILED only. -/
theorem FaultRow.relay_marked (step : q.step ≠ .addressSent ∧ q.step ≠ .byteSent ∧ q.step ≠ .readDue)
    (counts : FaultCounts v c h) :
    ∃ t, exec c s = .next t ∧ t.up.phase = .relay { q with mark := .failed } ∧ t.log = u.log ∧
      t.ds = u.ds ∧ v.sameBut t [.up, .ds, .log] := by
  have phase' : u.up.phase = .relay q := (fault.sameBut .up (by simp)).symm ▸ phase
  refine ⟨_, row.exec_failRelay running busy fault req counts, ?_, ?_, ?_,
    fault.frame u.failRelay_sameBut⟩ <;> rw [State.failRelay_other phase' step] <;> rfl

/-- A fault in a relay with no mark, by where it stands (R109, R129). -/
theorem FaultRow.relay_clear (mark : q.mark = .clear) :
    (q.step = .addressSent ∨ q.step = .byteSent →
      ∃ t, exec c s = .next t ∧
        t.up =
          { v.up with
            phase := .relay { q with mark := .failed, step := .hostTurn },
            idle := some v.now, drive := [.nack] } ∧
        t.log = u.log ∧ t.ds = u.ds ∧ v.sameBut t [.up, .ds, .log]) ∧
    (q.step = .readDue →
      (c = .stretchTimeout after →
        ∃ t, exec c s = .next t ∧
          t.up =
            { v.up with
              phase := .relay { q with mark := .failed, step := .readShown },
              idle := some v.now, drive := [.byte 0xFF] } ∧
          t.log = u.log ∧ t.ds = u.ds ∧ v.sameBut t [.up, .ds, .log]) ∧
      (c = .collision → exec c s = .next s)) ∧
    (q.step = .hostTurn ∨ q.step = .readShown ∨ q.step = .restarted true →
      exec c s = .next s) ∧
    (q.step = .readDone ∨ q.step = .restarted false →
      (c = .stretchTimeout after → v.unfinishedMove = true →
        ∃ t, exec c s = .next t ∧ t.up.phase = .relay { q with mark := .failed } ∧
          t.log = u.log ∧ t.ds = u.ds ∧ v.sameBut t [.up, .ds, .log]) ∧
      (c = .collision ∨ v.unfinishedMove = false → exec c s = .next s)) := by
  have up : u.up = v.up := fault.sameBut .up (by simp)
  have now : u.now = v.now := fault.sameBut .now (by simp)
  have phase' : u.up.phase = .relay q := up.symm ▸ phase
  have stretches := State.stretchable_relay req phase
  have compares := State.compares_relay req phase
  have same : v.sameBut u.failRelay.settle [.up, .ds, .log] := fault.frame u.failRelay_sameBut
  refine ⟨fun step => ?_, fun step => ⟨fun isStretch => ?_, fun isCollision => ?_⟩, fun step => ?_,
    fun step => ⟨fun isStretch open_ => ?_, fun quiet => ?_⟩⟩
  · refine ⟨_, row.exec_failRelay running busy fault req ⟨fun _ => ?_, fun _ => ?_⟩, ?_, ?_, ?_,
      same⟩
    · rw [stretches]; rcases step with step | step <;> simp [mark, step]
    · rw [compares]; rcases step with step | step <;> simp [mark, step]
    all_goals rw [State.failRelay_byte phase' step]
    · simp [State.startIdle, State.say, State.setPhase, up, now]
    all_goals rfl
  · refine ⟨_, row.exec_failRelay running busy fault req
      ⟨fun _ => ?_, fun isCollision => ?_⟩, ?_, ?_, ?_, same⟩
    · rw [stretches]; simp [mark, step]
    · rw [isStretch] at isCollision; cases isCollision
    all_goals rw [State.failRelay_readDue phase' step]
    · simp [State.startIdle, State.say, State.setPhase, up, now]
    all_goals rfl
  · refine row.exec_ignored busy ⟨fun other => absurd isCollision other, fun _ => ?_⟩
    rw [compares]; simp [mark, step]
  · refine row.exec_ignored busy ⟨fun _ => ?_, fun _ => ?_⟩
    · rw [stretches]; rcases step with step | step | step <;> simp [State.relayFinishing, mark, step]
    · rw [compares]; rcases step with step | step | step <;> simp [mark, step]
  · refine row.relay_marked running busy fault req phase ?_ ⟨fun _ => ?_, fun isCollision => ?_⟩
    · rcases step with step | step <;> simp [step]
    · rw [stretches]; rcases step with step | step <;> simp [State.relayFinishing, mark, step, open_]
    · rw [isStretch] at isCollision; cases isCollision
  · refine row.exec_ignored busy ⟨fun other => ?_, fun _ => ?_⟩
    · have ended := quiet.resolve_left other
      rw [stretches]; rcases step with step | step <;> simp [State.relayFinishing, step, ended]
    · rw [compares]; rcases step with step | step <;> simp [mark, step]

/-- A fault in a relay refused by protection, at its STOP (R126). -/
theorem FaultRow.relay_prot (mark : q.mark = .prot) :
    (q.step = .hostTurn ∨ (∃ p, q.step = .restarted p) → v.unfinishedMove = true →
      ∃ t, exec c s = .next t ∧ t.up.phase = .relay { q with mark := .failed } ∧
        t.log = u.log ∧ t.ds = u.ds ∧ v.sameBut t [.up, .ds, .log]) ∧
    (v.unfinishedMove = false → exec c s = .next s) := by
  have stretches := State.stretchable_relay req phase
  have compares := State.compares_relay req phase
  refine ⟨fun step open_ => ?_, fun ended => ?_⟩
  · refine row.relay_marked running busy fault req phase ?_ ⟨fun _ => ?_, fun _ => ?_⟩
    · rcases step with step | ⟨p, step⟩ <;> simp [step]
    · rw [stretches]; simp [State.relayFinishing, mark, open_]
    · rw [compares]; simp [State.relayFinishing, mark, open_]
  · refine row.exec_ignored busy ⟨fun _ => ?_, fun _ => ?_⟩
    · rw [stretches]; simp [State.relayFinishing, mark, ended]
    · rw [compares]; simp [State.relayFinishing, mark, ended]

end

/-- Settles O49. -/
theorem abortReportsToTheHolder : Obligations.AbortReportsToTheHolder := by
  intro s v c after d running row
  have row : FaultRow s v c after d := row
  obtain ⟨n, rfl⟩ := row.timed
  refine ⟨fun h u busy hu => ?_, fun free => ⟨fun closing awake moving => ?_, fun quiet => ?_⟩⟩
  · have fault : Faulted { s with now := n } u h d := by
      rw [hu]; simp [Faulted, State.faultBus, State.record]; rfl
    clear hu
    have other : h.req ≠ .relay → exec c s = .next (u.reportAbort h.req).settle := fun other =>
      row.exec_tells running busy fault (.of_not_relay other)
    have before := fault.sameBut
    have read : u.read = s.read := before .read (by simp)
    have os : u.os = s.os := fault.os
    have port : u.port = s.port := before .port (by simp)
    have now : u.now = n := before .now (by simp)
    refine ⟨fun m form => ?attempt, fun o t0 f req waits cond progress => ?fetch,
      fun q req phase mark => ?relay, fun q req phase mark => ?refused,
      fun a req start progress => ?descriptor, fun m a req start progress => ?probe,
      fun k a mk form req cmd job progress => ?portRead, fun k image b st form cmd job => ?block⟩
    case attempt =>
      rcases form with req | req | req | req <;>
        rw [other (by rw [req]; nofun), req] <;> rfl
    case fetch =>
      have eq : u.reportAbort h.req = (u.say []).underrun 2 := by
        rw [req]; exact State.abortFetch_eq (read.trans waits) cond progress
      have waits' : (u.say []).read = some o := read.trans waits
      refine ⟨_, other (by rw [req]; nofun), ?_⟩
      rw [eq]
      refine ⟨State.underrun_read waits' 2, ?_, ?_, ?_, ?_,
        State.sameBut_mono (fault.frame (l := [.read, .up, .log]) ?_) (by simp)⟩
      · change ((u.say []).underrun 2).up.drive = _
        rw [State.underrun_up waits']; rfl
      · change ((u.say []).underrun 2).up.idle = _
        rw [State.underrun_up waits']; exact congrArg some now
      · change ((u.say []).underrun 2).log = _
        have pointer : (u.say []).pointer o.member = s.pointer o.member :=
          State.pointer_congr (s := s) (before .members (by simp)) _
        have info : (u.say []).info o.member = s.info o.member :=
          State.info_congr (s := s) (before .members (by simp)) _
        have stamp : (u.say []).stamp = ({ s with now := n } : State).stamp := by
          simp [State.stamp, now]
        rw [State.underrun_log waits', pointer, info, stamp]; rfl
      · simp
      · refine State.sameBut_trans ?_ (State.sameBut_mono (State.underrun_sameBut _ _) (by simp))
        intro p hp; cases p <;> simp_all [State.sameAt]
    case relay =>
      obtain ⟨sent, due, idle, last⟩ := row.relay_clear running busy fault req phase mark
      refine ⟨sent, due, idle, fun step => ⟨fun isStretch closing moving => ?_, fun quiet => ?_⟩⟩
      · exact (last step).1 isStretch (by simp [State.unfinishedMove, closing, moving])
      · refine (last step).2 (quiet.imp_right fun quiet => ?_)
        rcases quiet with quiet | quiet <;> simp [State.unfinishedMove, quiet]
    case refused =>
      obtain ⟨stop, ended⟩ := row.relay_prot running busy fault req phase mark
      refine ⟨fun step closing moving => stop step ?_, fun quiet => ended ?_⟩
      · simp [State.unfinishedMove, closing, moving]
      · rcases quiet with quiet | quiet <;> simp [State.unfinishedMove, quiet]
    case descriptor =>
      have start' : u.os.start = some (.descriptorRead a) := os ▸ start
      have eq : u.reportAbort h.req = u.setStartAccess { a with asking := .afterClear } := by
        rw [req]
        exact State.abortStart_eq (State.startAccess_descriptorRead start') progress
          (State.startRequest_descriptorRead start')
      refine ⟨_, other (by rw [req]; nofun), ?_⟩
      rw [eq]
      exact ⟨State.setStartAccess_descriptorRead start' _, rfl, rfl,
        fault.frame (u.setStartAccess_sameBut _)⟩
    case probe =>
      have start' : u.os.start = some (.probing m a) := os ▸ start
      have eq : u.reportAbort h.req = u.setStartAccess { a with asking := .afterClear } := by
        rw [req]
        exact State.abortStart_eq (State.startAccess_probing start') progress
          (State.startRequest_probing start')
      refine ⟨_, other (by rw [req]; nofun), ?_⟩
      rw [eq]
      exact ⟨State.setStartAccess_probing start' _, rfl, rfl, fault.frame (u.setStartAccess_sameBut _)⟩
    case portRead =>
      have eq : u.reportAbort h.req = u.setJob (mk { a with asking := .afterClear }) := by
        rw [req]; exact State.abortPortRead_eq form (port ▸ cmd) job progress
      refine ⟨_, other (by rw [req]; nofun), ?_⟩
      rw [eq]
      refine ⟨by simp [State.setJob, port, cmd], rfl, rfl, fault.frame (l := [.port]) ?_⟩
      intro p hp; cases p <;> simp_all only [State.sameAt, State.setJob, List.mem_singleton,
        not_true_eq_false]
    case block =>
      have cmd' : u.port.cmd = some k := port ▸ cmd
      have eq : u.reportAbort h.req = u.refuse reasonAccessFailed := by
        rcases form with req | req <;> rw [req] <;> exact State.abortBlock_eq cmd' job
      refine ⟨_, other (by rcases form with req | req <;> rw [req] <;> nofun), ?_⟩
      rw [eq]
      refine ⟨?_, ?_, ?_, fault.frame (u.refuse_sameBut _)⟩
      · exact (State.finish_port cmd' _ _).trans (by rw [port]; rfl)
      · simp [State.refuse]
      · simp [State.refuse]
  · refine ⟨_, row.exec_stop running free ?_, rfl, by simp [State.faultBus, State.record], ?_⟩
    · simp_all [State.stopOpen, State.unfinishedMove]
    · refine State.sameBut_trans ?_ (State.sameBut_mono (State.sameBut_settle _) (by simp))
      intro p hp; cases p <;> simp_all [State.sameAt, State.faultBus]
  · refine row.exec_noStop free ?_
    rcases quiet with quiet | quiet | quiet <;>
      simp [State.stopOpen, State.unfinishedMove, quiet]

end Sys2Proof.Machine
end

section
/-! MEMBER_RETRY and MEMBER_DISCARD (O58), with the marks and deadlines of merged entries (R16, R24). -/

namespace Sys2Proof.Machine

/-! ## Marks and deadlines of merged entries -/

/-- Two entries that `sel` picks, of one member and page. -/
def SameKey (sel : Entry → Bool) (x e : Entry) : Prop :=
  sel x = true ∧ sel e = true ∧ x.member = e.member ∧ x.page = e.page

theorem SameKey.mergeOver {sel : Entry → Bool} {x o e : Entry}
    (stable : ∀ o e, sel (o.mergeOver e) = sel o) (h : SameKey sel x o) :
    SameKey sel x (o.mergeOver e) := by
  obtain ⟨px, po, member, page⟩ := h
  exact ⟨px, (stable o e).trans po, member, page⟩

/-- A list merged from `seen`: every entry is covered by one of its page, and each merged mark and deadline is
one of the entries'. -/
structure MergedFrom (sel : Entry → Bool) (seen done : List Entry) : Prop where
  cover : ∀ x ∈ seen, sel x = true → ∃ e ∈ done, SameKey sel x e ∧
    (x.marked = true → e.marked = true) ∧ x.deadline ≤ e.deadline
  mark : ∀ e ∈ done, sel e = true → e.marked = true →
    ∃ x ∈ seen, SameKey sel x e ∧ x.marked = true
  deadline : ∀ e ∈ done, sel e = true → ∃ x ∈ seen, SameKey sel x e ∧ x.deadline = e.deadline

theorem MergedFrom.append {sel : Entry → Bool} {seen done : List Entry}
    (h : MergedFrom sel seen done) (e : Entry) : MergedFrom sel (seen ++ [e]) (done ++ [e]) where
  cover := fun x hx px => by
    rcases List.mem_append.mp hx with old | new
    · obtain ⟨y, hy, covers⟩ := h.cover x old px
      exact ⟨y, List.mem_append_left _ hy, covers⟩
    · obtain rfl := List.mem_singleton.mp new
      exact ⟨x, by simp, ⟨px, px, rfl, rfl⟩, id, le_rfl⟩
  mark := fun y hy py marked => by
    rcases List.mem_append.mp hy with old | new
    · obtain ⟨x, hx, from_⟩ := h.mark y old py marked
      exact ⟨x, List.mem_append_left _ hx, from_⟩
    · obtain rfl := List.mem_singleton.mp new
      exact ⟨y, by simp, ⟨py, py, rfl, rfl⟩, marked⟩
  deadline := fun y hy py => by
    rcases List.mem_append.mp hy with old | new
    · obtain ⟨x, hx, from_⟩ := h.deadline y old py
      exact ⟨x, List.mem_append_left _ hx, from_⟩
    · obtain rfl := List.mem_singleton.mp new
      exact ⟨y, by simp, ⟨py, py, rfl, rfl⟩, rfl⟩

theorem MergedFrom.join {sel : Entry → Bool} {seen before after : List Entry} {o e : Entry}
    (stable : ∀ o e, sel (o.mergeOver e) = sel o) (key : SameKey sel o e)
    (h : MergedFrom sel seen (before ++ o :: after)) :
    MergedFrom sel (seen ++ [e]) (before ++ o.mergeOver e :: after) := by
  obtain ⟨po, pe, member, page⟩ := key
  have keyE : SameKey sel e (o.mergeOver e) := ⟨pe, (stable o e).trans po, member.symm, page.symm⟩
  have others : ∀ {y}, y ∈ before ++ o.mergeOver e :: after →
      y = o.mergeOver e ∨ y ∈ before ++ o :: after := fun hy => by
    simp only [List.mem_append, List.mem_cons] at hy ⊢
    rcases hy with hy | hy | hy <;> simp [hy]
  refine ⟨fun x hx px => ?_, fun y hy py marked => ?_, fun y hy py => ?_⟩
  · rcases List.mem_append.mp hx with old | new
    · obtain ⟨y, hy, same, marked, le⟩ := h.cover x old px
      by_cases eq : y = o
      · subst eq
        exact ⟨y.mergeOver e, by simp, same.mergeOver stable,
          fun k => by simp [Entry.mergeOver, marked k], le.trans (le_max_left _ _)⟩
      · refine ⟨y, ?_, same, marked, le⟩
        simp only [List.mem_append, List.mem_cons] at hy ⊢
        exact hy.imp_right fun k => .inr (k.resolve_left eq)
    · obtain rfl := List.mem_singleton.mp new
      exact ⟨_, by simp, keyE, fun k => by simp [Entry.mergeOver, k], le_max_right _ _⟩
  · rcases others hy with rfl | old
    · rcases Bool.or_eq_true_iff.mp marked with first | second
      · obtain ⟨x, hx, same, k⟩ := h.mark o (by simp) po first
        exact ⟨x, List.mem_append_left _ hx, same.mergeOver stable, k⟩
      · exact ⟨e, by simp, keyE, second⟩
    · obtain ⟨x, hx, from_⟩ := h.mark y old py marked
      exact ⟨x, List.mem_append_left _ hx, from_⟩
  · rcases others hy with rfl | old
    · rcases Nat.le_total e.deadline o.deadline with le | le
      · obtain ⟨x, hx, same, k⟩ := h.deadline o (by simp) po
        exact ⟨x, List.mem_append_left _ hx, same.mergeOver stable, k.trans (Nat.max_eq_left le).symm⟩
      · exact ⟨e, by simp, keyE, (Nat.max_eq_right le).symm⟩
    · obtain ⟨x, hx, from_⟩ := h.deadline y old py
      exact ⟨x, List.mem_append_left _ hx, from_⟩

theorem mergeSamePage_mergedFrom {sel : Entry → Bool} (stable : ∀ o e, sel (o.mergeOver e) = sel o)
    (l : List Entry) : MergedFrom sel l (mergeSamePage sel l) := by
  refine mergeSamePage_induction (P := MergedFrom sel) sel l ⟨nofun, nofun, nofun⟩ ?_
  intro seen done e _ h
  obtain ⟨joined, -⟩ | ⟨before, o, after, rfl, joined, picked, also, member, page⟩ :=
    joinMerged_cases sel done e <;> rw [joined]
  · exact h.append e
  · exact h.join stable ⟨also, picked, member, page⟩

/-- Of entries for one page that a merge picks one is left. -/
theorem mergeSamePage_unique {sel : Entry → Bool} (stable : ∀ o e, sel (o.mergeOver e) = sel o)
    {l : List Entry} {x y : Entry} (hx : x ∈ mergeSamePage sel l) (hy : y ∈ mergeSamePage sel l)
    (same : SameKey sel x y) : x = y := by
  by_contra apart
  have symm : Std.Symm fun a b : Entry => ¬SameKey sel a b := ⟨fun a b never back => by
    obtain ⟨pa, pb, member, page⟩ := back
    exact never ⟨pb, pa, member.symm, page.symm⟩⟩
  have pairwise : (mergeSamePage sel l).Pairwise fun a b => ¬SameKey sel a b :=
    mergeSamePage_pairwise stable l
  exact pairwise.forall hx hy apart same

/-- The merged entry of a page carries each mark and the latest deadline of its entries (R16). -/
theorem mergeSamePage_bounds {sel : Entry → Bool} (stable : ∀ o e, sel (o.mergeOver e) = sel o)
    {l : List Entry} {e x : Entry} (he : e ∈ mergeSamePage sel l) (hx : x ∈ l)
    (same : SameKey sel x e) : (x.marked = true → e.marked = true) ∧ x.deadline ≤ e.deadline := by
  obtain ⟨y, hy, key, bounds⟩ := (mergeSamePage_mergedFrom stable l).cover x hx same.1
  obtain ⟨-, py, memberY, pageY⟩ := key
  obtain ⟨-, pe, memberE, pageE⟩ := same
  have eq : y = e := mergeSamePage_unique stable hy he
    ⟨py, pe, memberY.symm.trans memberE, pageY.symm.trans pageE⟩
  exact eq ▸ bounds

/-! ## A command answered at its decoding -/

/-- An answer to the frame just received (R179, R181). -/
theorem State.answer_port_hunt {s u : State} (h : u.port = (s.setRx .hunt).port) (code seq : Byte)
    (st : Status) (pl : List Byte) :
    (u.answer code seq st pl).port = s.port.answered code seq st pl := by
  rw [State.answer_port, h]; rfl

/-- The answer leaves all but the port. -/
theorem State.answer_frame {s u : State} {l : List Part} (h : (s.setRx .hunt).sameBut u l)
    (code seq : Byte) (st : Status) (pl : List Byte) :
    s.sameBut (u.answer code seq st pl).settle (l ++ [.port]) := by
  refine State.sameBut_trans ?_ (State.sameBut_mono (State.sameBut_settle _) (by simp))
  refine State.sameBut_trans ?_ (State.sameBut_mono (State.answer_sameBut u code seq st pl) (by simp))
  refine State.sameBut_trans ?_ (State.sameBut_mono h fun _ => List.mem_append_left _)
  intro p hp; cases p <;> simp_all [State.sameAt]

/-! ## The member an argument names (R188) -/

theorem memberArg_of_lt {b : Byte} {m : MemberIx} (h : b.toNat = m.val) :
    memberArg [b] = some m := by
  simp [memberArg, imageNat, h]

theorem memberArg_of_gt {b : Byte} (h : 7 < b.toNat) : memberArg [b] = none := by
  have none_ : ¬ b.toNat < 8 := by omega
  simp [memberArg, imageNat, none_]

/-! ## MEMBER_RETRY (R24) -/

section
variable (s : State) (m : MemberIx)

theorem Entry.revived_state {e : Entry} (h : e.member = m) :
    (e.revived m).state = .pending ∧ (e.revived m).attempts = 0 := by
  simp [Entry.revived, h]

/-- What is left of an entry that is retried but its state and attempts. -/
theorem Entry.revived_keeps (e : Entry) :
    (e.revived m).image = e.image ∧ (e.revived m).marked = e.marked ∧
      (e.revived m).deadline = e.deadline := by
  unfold Entry.revived; split <;> exact ⟨rfl, rfl, rfl⟩

/-- The entries that a retry merges: those of the member, where it is loose. -/
def State.retrySel (e : Entry) : Bool := e.member == m && !(s.info m).strict

theorem State.retryMember_journal :
    (s.retryMember m).journal = (mergeSamePage (s.retrySel m) s.journal).map (Entry.revived m) := rfl

theorem State.mem_retryMember {e : Entry} (h : e ∈ (s.retryMember m).journal) :
    ∃ o ∈ mergeSamePage (s.retrySel m) s.journal, e = o.revived m ∧ o.member = e.member ∧
      o.page = e.page ∧ o.marked = e.marked ∧ o.deadline = e.deadline := by
  obtain ⟨o, ho, rfl⟩ := List.mem_map.mp h
  obtain ⟨-, marked, deadline⟩ := o.revived_keeps m
  exact ⟨o, ho, rfl, by simp, by simp, marked.symm, deadline.symm⟩

theorem State.retryMember_strict (strict : (s.info m).strict = true) :
    (s.retryMember m).journal = s.journal.map (Entry.revived m) := by
  rw [State.retryMember_journal, mergeSamePage_of_none]
  simp [State.retrySel, strict]

/-- The entries of the other members keep their order (R24). -/
theorem State.retryMember_others :
    (s.retryMember m).journal.filter (fun e => e.member != m) =
      s.journal.filter (fun e => e.member != m) := by
  have same : ((mergeSamePage (s.retrySel m) s.journal).filter fun e => e.member != m) =
      s.journal.filter fun e => e.member != m := by
    cases strict : (s.info m).strict with
    | true => rw [mergeSamePage_of_none]; simp [State.retrySel, strict]
    | false =>
      have sel : (fun e : Entry => e.member != m) = fun e => !s.retrySel m e := by
        funext e; simp [State.retrySel, strict, bne]
      rw [sel]; exact filter_mergeSamePage (fun _ _ => rfl) _
  have kept : ((fun e : Entry => e.member != m) ∘ Entry.revived m) = fun e => e.member != m := by
    funext e; simp
  rw [State.retryMember_journal, List.filter_map, kept, same]
  refine List.map_congr_left (g := id) (fun e he => ?_) |>.trans (List.map_id _)
  have other : e.member ≠ m := by simpa using (List.mem_filter.mp he).2
  exact Entry.revived_of_ne other

theorem State.memberState_retryMember (held : s.memberState m = .held) (k : MemberIx) :
    (s.retryMember m).memberState k = if k = m then .online else s.memberState k := by
  have table : (s.retryMember m).memberState k = (s.setMember m .online).memberState k := rfl
  have row := State.row_of_memberState (s := s) (m := m) (by rw [held]; nofun)
  rw [table]
  by_cases same : k = m
  · rw [if_pos same, same, State.memberState_setMember row]
  · rw [if_neg same, State.memberState_setMember_ne same]

/-- Only the entries of the member count for its overlay. -/
theorem State.overlayOf_filter {k : MemberIx} {p : Entry → Bool}
    (all : ∀ e : Entry, e.member = k → p e = true) (a : MemberAddr) (l : List Entry) :
    s.overlayOf k a (l.filter p) = s.overlayOf k a l := by
  induction l with
  | nil => rfl
  | cons e l ih =>
    rw [List.filter_cons, State.overlayOf_cons]
    split
    · rw [State.overlayOf_cons, ih]
    · rename_i out
      have none_ : s.entryByte k a e = none :=
        State.entryByte_eq_none_iff.mpr fun own => absurd (all e own) out
      rw [none_, ih, Option.or_none]

/-- What every read finds in the journal stays (R24, R62). -/
theorem State.overlayByte_retryMember (sized : s.Sized m) (k : MemberIx) (a : MemberAddr) :
    (s.retryMember m).overlayByte k a = s.overlayByte k a := by
  rw [State.overlayByte_eq_overlayOf, State.overlayByte_eq_overlayOf,
    State.overlayOf_congr (s := s) (t := s.retryMember m) (s.info_setMember m k .online)]
  by_cases same : k = m
  · subst same
    have merged := State.overlayOf_mergeSamePage (s := s) (m := k) (a := a) (sel := s.retrySel k)
      (pick := !(s.info k).strict) (l := s.journal) (fun _ _ => rfl)
      fun e he => ⟨sized e he, fun own _ => by simp [State.retrySel, own]⟩
    refine Eq.trans (s.overlayOf_map k a ?_ ?_ ?_ _) merged
    · simp
    · simp
    · exact fun e => (e.revived_keeps k).1
  · have mine : ∀ e : Entry, e.member = k → (e.member != m) = true := fun e own => by simp [own, same]
    rw [← s.overlayOf_filter mine, State.retryMember_others, s.overlayOf_filter mine]

/-- One entry is left for a page of a loose member, with the marks and the latest deadline of the entries it
was merged from (R24). -/
theorem State.retryMember_loose (loose : (s.info m).strict = false) :
    ((s.retryMember m).journal.Pairwise fun x y =>
      ¬(x.member = m ∧ y.member = m ∧ x.page = y.page)) ∧
    (∀ x ∈ s.journal, x.member = m →
      ∃ e ∈ (s.retryMember m).journal, e.member = m ∧ e.page = x.page) ∧
    ∀ e ∈ (s.retryMember m).journal, e.member = m →
      (e.marked = true ↔ ∃ x ∈ s.journal, x.member = m ∧ x.page = e.page ∧ x.marked = true) ∧
      (∀ x ∈ s.journal, x.member = m → x.page = e.page → x.deadline ≤ e.deadline) ∧
      ∃ x ∈ s.journal, x.member = m ∧ x.page = e.page ∧ x.deadline = e.deadline := by
  have stable : ∀ o e : Entry, s.retrySel m (o.mergeOver e) = s.retrySel m o := fun _ _ => rfl
  have sel : ∀ e : Entry, s.retrySel m e = true ↔ e.member = m := fun e => by
    simp [State.retrySel, loose]
  have merged := mergeSamePage_mergedFrom stable s.journal
  refine ⟨?_, fun x hx own => ?_, fun e he own => ?_⟩
  · rw [State.retryMember_journal, List.pairwise_map]
    refine (mergeSamePage_pairwise stable s.journal).imp fun {x y} apart both => ?_
    obtain ⟨mx, my, page⟩ := both
    rw [Entry.revived_member] at mx my
    rw [Entry.revived_page, Entry.revived_page] at page
    exact apart ⟨(sel x).mpr mx, (sel y).mpr my, mx.trans my.symm, page⟩
  · obtain ⟨e, he, ⟨-, -, member, page⟩, -⟩ := merged.cover x hx ((sel x).mpr own)
    exact ⟨e.revived m, List.mem_map_of_mem he, by simp [← member, own], by simp [page]⟩
  · obtain ⟨o, ho, -, member, page, marked, deadline⟩ := s.mem_retryMember m he
    rw [← page, ← marked, ← deadline]
    have own : o.member = m := member.trans own
    have picked := (sel o).mpr own
    have key : ∀ x : Entry, x.member = m → x.page = o.page → SameKey (s.retrySel m) x o :=
      fun x mx px => ⟨(sel x).mpr mx, picked, mx.trans own.symm, px⟩
    refine ⟨⟨fun k => ?_, fun ⟨x, hx, mx, px, k⟩ => ?_⟩, fun x hx mx px => ?_, ?_⟩
    · obtain ⟨x, hx, ⟨px, -, -, page⟩, k⟩ := merged.mark o ho picked k
      exact ⟨x, hx, (sel x).mp px, page, k⟩
    · exact (mergeSamePage_bounds stable ho hx (key x mx px)).1 k
    · exact (mergeSamePage_bounds stable ho hx (key x mx px)).2
    · obtain ⟨x, hx, ⟨px, -, -, page⟩, k⟩ := merged.deadline o ho picked
      exact ⟨x, hx, (sel x).mp px, page, k⟩

end

/-! ## The commands (R188) -/

/-- Settles O58. -/
theorem heldMembersAreRetriedOrDiscarded : Obligations.HeldMembersAreRetriedOrDiscarded := by
  intro s seq b m
  refine ⟨fun ready => ?_, fun ready => ?_⟩
  · have run := ready.exec_eq seq (payload := [b]) rfl
    change exec (.memberRetry seq [b]) s =
      .next ((s.setRx .hunt).runMemberRetry 0x12 seq [b]).settle at run
    rw [run]
    refine ⟨fun gt => ?_, fun lt free => ?_, fun lt held => ?_⟩
    · have body : (s.setRx .hunt).runMemberRetry 0x12 seq [b] =
          (s.setRx .hunt).answer 0x12 seq .badArgument [] := by
        simp [State.runMemberRetry, memberArg_of_gt gt]
      rw [body]
      exact ⟨_, rfl, State.answer_port_hunt rfl _ _ _ _,
        State.answer_frame (State.sameBut_refl _ []) _ _ _ _⟩
    · have free' : (s.setRx .hunt).memberState m ≠ .held := free
      have body : (s.setRx .hunt).runMemberRetry 0x12 seq [b] =
          (s.setRx .hunt).answer 0x12 seq .refused [18] := by
        simp only [State.runMemberRetry, memberArg_of_lt lt, if_neg free']; rfl
      rw [body]
      exact ⟨_, rfl, State.answer_port_hunt rfl _ _ _ _,
        State.answer_frame (State.sameBut_refl _ []) _ _ _ _⟩
    · have held' : (s.setRx .hunt).memberState m = .held := held
      have body : (s.setRx .hunt).runMemberRetry 0x12 seq [b] =
          ((s.setRx .hunt).retryMember m).answer 0x12 seq .ok [] := by
        simp only [State.runMemberRetry, memberArg_of_lt lt, if_pos held']
      rw [body]
      have same := State.answer_frame (s := s) (u := (s.setRx .hunt).retryMember m)
        (l := [.members, .journal])
        (by intro p hp; cases p <;> simp_all [State.sameAt, State.retryMember]) 0x12 seq .ok []
      have answered := State.answer_sameBut ((s.setRx .hunt).retryMember m) 0x12 seq .ok []
      generalize hu : ((s.setRx .hunt).retryMember m).answer 0x12 seq .ok [] = u at same answered ⊢
      have list : u.settle.journal = (s.retryMember m).journal := answered .journal (by simp)
      have table : u.settle.members = (s.retryMember m).members := answered .members (by simp)
      have state : ∀ k, u.settle.memberState k = if k = m then .online else s.memberState k :=
        fun k => (State.memberState_congr table k).trans (s.memberState_retryMember m held k)
      refine ⟨_, rfl, ?_, by simp [state], fun k other => by simp [state, other], ?_, ?_, ?_, ?_, ?_,
        same⟩
      · rw [← hu]; exact State.answer_port_hunt rfl _ _ _ _
      · intro e he own
        rw [list] at he
        obtain ⟨o, -, rfl, member, -⟩ := s.mem_retryMember m he
        exact Entry.revived_state m (member.trans own)
      · rw [list]; exact s.retryMember_others m
      · intro strict; rw [list]; exact s.retryMember_strict m strict
      · intro loose; rw [list]; exact s.retryMember_loose m loose
      · intro sized k a
        exact (State.overlayByte_congr list table k a).trans (s.overlayByte_retryMember m sized k a)
  · have run := ready.exec_eq seq (payload := [b]) rfl
    change exec (.memberDiscard seq [b]) s =
      .next ((s.setRx .hunt).runMemberDiscard 0x13 seq [b]).settle at run
    rw [run]
    refine ⟨fun gt => ?_, fun lt free => ?_, fun lt held => ?_⟩
    · have body : (s.setRx .hunt).runMemberDiscard 0x13 seq [b] =
          (s.setRx .hunt).answer 0x13 seq .badArgument [] := by
        simp [State.runMemberDiscard, memberArg_of_gt gt]
      rw [body]
      exact ⟨_, rfl, State.answer_port_hunt rfl _ _ _ _,
        State.answer_frame (State.sameBut_refl _ []) _ _ _ _⟩
    · have free' : (s.setRx .hunt).memberState m ≠ .held := free
      have body : (s.setRx .hunt).runMemberDiscard 0x13 seq [b] =
          (s.setRx .hunt).answer 0x13 seq .refused [18] := by
        simp only [State.runMemberDiscard, memberArg_of_lt lt, if_neg free']; rfl
      rw [body]
      exact ⟨_, rfl, State.answer_port_hunt rfl _ _ _ _,
        State.answer_frame (State.sameBut_refl _ []) _ _ _ _⟩
    · have held' : (s.setRx .hunt).memberState m = .held := held
      have body : (s.setRx .hunt).runMemberDiscard 0x13 seq [b] =
          ((s.setRx .hunt).discardMember m).answer 0x13 seq .ok
            [BitVec.ofNat 8 (s.journal.countP fun e => e.member == m)] := by
        simp only [State.runMemberDiscard, memberArg_of_lt lt, if_pos held']; rfl
      rw [body]
      have row := State.row_of_memberState (s := s) (m := m) (by rw [held]; nofun)
      refine ⟨_, rfl, State.answer_port_hunt rfl _ _ _ _, State.memberState_setMember row .online,
        fun k other => State.memberState_setMember_ne other .online, rfl,
        State.answer_frame (l := [.members, .journal]) ?_ _ _ _ _⟩
      intro p hp; cases p <;> simp_all [State.sameAt, State.discardMember]

end Sys2Proof.Machine
end

section
/-! The step, the resets and the MSEL window (O1, O3, O4, O10 to O13). -/

namespace Sys2Proof.Machine

/-- Settles O1. -/
theorem stepRunsFrontCommand : Obligations.StepRunsFrontCommand := by
  intro s
  refine ⟨fun c rest => rfl, fun none_ => ⟨fun running => ?_, fun held => ?_⟩⟩
  · simp [step, none_, State.tick, running]
  · simp [step, none_, State.tick, held]

/-- Settles O3: every event but a reset asks first whether a reset is held. -/
theorem heldInResetTakesNoEvent : Obligations.HeldInResetTakesNoEvent := by
  intro c s held power line release
  cases c with
  | powerOnReset => exact absurd rfl power
  | resetLineAsserted => exact absurd rfl line
  | resetRelease p => exact absurd rfl (release p)
  | _ => exact if_pos held

/-! ## A completed read and its byte count (R121) -/

section
variable (r : Result) {s : State} {mine : Request → Bool} {report : ReadReport} {h : Holder}
  {body : Holder → State → State} (meaning : r = s.takeRead mine report body)
  (running : s.inReset = false) (busy : s.ds.ctl = .busy h) (holds : mine h.req = true)
include meaning running busy holds

/-- The end of a downstream read with the bytes that its transaction asked for, or refused: what the holder
makes of it, and then the quiesce timer. `r` is the command's own meaning. -/
theorem exec_nextRead
    (fits : ∀ dev word n bytes, h.txn = .read dev word n → report = .completed bytes →
      bytes.length = n) : r = .next (body h s).settle := by
  rw [meaning, State.takeRead, if_neg (by simp [running]), busy]
  simp only [holds, if_true]
  split
  · rename_i txn; exact if_pos (fits _ _ _ _ txn rfl)
  · rfl

theorem exec_nackedRead {at_ : ReadNack} (nack : report = .nack at_) :
    r = .next (body h s).settle :=
  exec_nextRead r meaning running busy holds (by rw [nack]; nofun)

theorem exec_completedRead {dev : DevAddr} {word bytes : List Byte}
    (txn : h.txn = .read dev word bytes.length) (done : report = .completed bytes) :
    r = .next (body h s).settle :=
  exec_nextRead r meaning running busy holds fun dev' word' n bytes' txn' done' => by
    rw [txn] at txn'; rw [done] at done'; cases txn'; cases done'; rfl

/-- A completed read of another number of bytes stops, whoever holds the bus. -/
theorem exec_wrongCount {dev : DevAddr} {word bytes : List Byte} {n : Nat}
    (txn : h.txn = .read dev word n) (done : report = .completed bytes) (other : bytes.length ≠ n) :
    r = .fault .byteCount := by
  rw [meaning, done]; simp [State.takeRead, running, busy, holds, txn, other]

end

/-- Settles O4. -/
theorem wrongByteCountStops : Obligations.WrongByteCountStops := by
  intro s h dev word bytes n m running busy txn other
  refine ⟨fun req => ?_, fun req => ?_, fun req => ?_, fun who req => ?_⟩
  · exact exec_wrongCount (execFetchEnd (.completed bytes) s) rfl running busy (by rw [req]; rfl) txn
      rfl other
  · exact exec_wrongCount (execFillReadEnd (.completed bytes) s) rfl running busy (by rw [req]; rfl)
      txn rfl other
  · exact exec_wrongCount (execVerifyReadEnd (.completed bytes) s) rfl running busy
      (by rw [req]; rfl) txn rfl other
  · exact exec_wrongCount (execDescriptorReadEnd (.completed bytes) s) rfl running busy
      (by rw [req]; rfl) txn rfl other

/-! ## The resets (R164) -/

theorem State.resetPart_eq (s : State) (mode : Mode) (plus : Nat) :
    s.resetPart mode plus =
      { State.reset with
        pending := s.pending
        os := { State.reset.os with mode := mode }
        log :=
          if s.journal = [] then s.log
          else
            pushRecord
              { stamp := 0, kind := .resetDiscard, member := none, page := none,
                detail := BitVec.ofNat 8 (s.journal.length + plus), lost := false, read := false }
              s.log } := by
  cases h : s.journal with
  | nil => simp [State.resetPart, h]
  | cons e l => simp [State.resetPart, h, State.record, State.stamp, State.reset]

/-- Settles O10. -/
theorem hardResetsLeaveTheirState : Obligations.HardResetsLeaveTheirState := by
  intro s
  refine ⟨⟨_, rfl, rfl, ?_⟩, ?_⟩
  · refine ⟨rfl, rfl, fun _ => rfl, rfl, rfl, rfl, rfl, rfl, rfl, rfl, rfl, rfl, rfl, rfl, rfl, rfl,
      rfl, rfl, rfl, rfl, rfl, rfl, ?_, rfl, rfl, rfl⟩
    rfl
  · exact congrArg Host.Outcome.next (s.resetPart_eq .off 0)

/-- Settles O11. -/
theorem responseSentFreesItsPlace : Obligations.ResponseSentFreesItsPlace := by
  intro s p o rest running out
  refine ⟨fun busy => ?_, fun command other => ?_, fun command armed open_ => ?_⟩
  · refine ⟨_, exec_next (execResponseSent p s) rfl running (by simp only [out, busy]; rfl), rfl, ?_⟩
    refine State.sameBut_trans ?_ (State.sameBut_mono (State.sameBut_settle _) (by simp))
    intro p hp; cases p <;> simp_all [State.sameAt]
  · have other' : ({ s with port := { s.port with tx := rest } } : State).job ≠ some .resetArmed := other
    refine ⟨_, exec_next (execResponseSent p s) rfl running (by simp only [out, command]; rfl), ?_⟩
    rw [State.commandSent, if_neg other']
    refine ⟨rfl, State.sameBut_trans ?_ (State.sameBut_mono (State.sameBut_settle _) (by simp))⟩
    intro p hp; cases p <;> simp_all [State.sameAt]
  · have armed' : ({ s with port := { s.port with tx := rest } } : State).job = some .resetArmed := armed
    refine (exec_next (execResponseSent p s) rfl running (by simp only [out, command]; rfl)).trans ?_
    rw [State.commandSent, if_pos armed', State.resetPart_eq]
    simp [State.release, State.settle, State.reset, open_]
    rfl

/-- Settles O12. -/
theorem resetReleaseBeginsStartUp : Obligations.ResetReleaseBeginsStartUp := by
  intro s p held
  refine ⟨s.release false p, if_pos held, rfl, rfl, rfl, rfl, rfl, rfl, fun off => if_pos off, ?_⟩
  intro p hp; cases p <;> simp_all [State.sameAt, State.release]

end Sys2Proof.Machine
end

section
/-! Leaving STARTING, the MSEL window and the start-up accesses (O13 to O16). -/

namespace Sys2Proof.Machine

/-! ## Leaving STARTING (R165, R167) -/

section
variable (s : State)

theorem State.enterFlush_os : s.enterFlush.os = { s.os with part := .flush } := by
  unfold State.enterFlush State.abortWrite
  split
  · split <;> rfl
  · rfl

theorem State.enterFlush_drain :
    s.enterFlush.drain = { s.drain with episode := some { budget := .running, openedAt := s.now } } := by
  unfold State.enterFlush State.abortWrite
  split
  · split <;> rfl
  · rfl

theorem State.answerReload_sameBut (n : Nat) : s.sameBut (s.answerReload n) [.port] := by
  unfold State.answerReload
  split
  · exact s.finish_sameBut _ _
  · exact s.sameBut_refl _

theorem State.answerReload_rx (n : Nat) : (s.answerReload n).port.rx = s.port.rx := by
  unfold State.answerReload State.finish
  split
  · split <;> rfl
  · rfl

/-- The part state and its cause once the part has left STARTING for a prepared state. -/
def State.departed (d : Prepared) : PartState × Option PassCause :=
  match d with
  | .run => (if s.drain.pfailAsserted then .flush else .run, none)
  | .passStrap => (.passthrough, some .strap)
  | .passInvalid _ => (.passthrough, some .invalid)

theorem State.depart_os (d : Prepared) :
    (s.depart d).os =
      { s.os with
        part := (s.departed d).1, cause := (s.departed d).2, start := none, everLeft := true } := by
  cases d with
  | run =>
    have drain : ((s.departTo .run none).answerReload 0).drain = s.drain :=
      State.answerReload_sameBut _ 0 .drain (by simp)
    simp only [State.depart, drain, State.departed]
    split
    · rw [State.enterFlush_os, State.answerReload_os]; rfl
    · rw [State.answerReload_os]; rfl
  | passStrap => rfl
  | passInvalid n => simp only [State.depart, State.answerReload_os]; rfl

theorem State.depart_sameBut (d : Prepared) :
    s.sameBut (s.depart d) [.os, .port, .journal, .drain, .up] := by
  have left : ∀ p c, s.sameBut (s.departTo p c) [.os, .port, .journal, .drain, .up] := fun p c => by
    intro q hq; cases q <;> simp_all [State.sameAt]
  have answered : ∀ p c n,
      s.sameBut ((s.departTo p c).answerReload n) [.os, .port, .journal, .drain, .up] := fun p c n =>
    State.sameBut_trans (left p c) (State.sameBut_mono (State.answerReload_sameBut _ n) (by simp))
  cases d with
  | run =>
    simp only [State.depart]
    split
    · exact State.sameBut_trans (answered _ _ _)
        (State.sameBut_mono (State.enterFlush_sameBut _) (by simp))
    · exact answered _ _ _
  | passStrap => exact left _ _
  | passInvalid n => exact answered _ _ _

theorem State.depart_rx (d : Prepared) : (s.depart d).port.rx = s.port.rx := by
  cases d with
  | run =>
    simp only [State.depart]
    split
    · rw [State.enterFlush_port, State.answerReload_rx]; rfl
    · rw [State.answerReload_rx]; rfl
  | passStrap => rfl
  | passInvalid n => simp only [State.depart, State.answerReload_rx]; rfl

/-- An entry to RUN with PFAIL asserted opens a flush episode (R149). -/
theorem State.depart_episode (h : s.drain.pfailAsserted = true) :
    (s.depart .run).drain.episode = some { budget := .running, openedAt := s.now } := by
  have same := State.answerReload_sameBut (s.departTo .run none) 0
  have drain : ((s.departTo .run none).answerReload 0).drain = s.drain := same .drain (by simp)
  have now : ((s.departTo .run none).answerReload 0).now = s.now := same .now (by simp)
  simp only [State.depart, drain, h, if_true, State.enterFlush_drain, now]

theorem State.leaveIfReady_of_ready {d : Prepared} (part : s.os.part = .starting)
    (start : s.os.start = some (.leaving d)) (msel : s.os.msel = none) :
    s.leaveIfReady = s.depart d := by
  simp [State.leaveIfReady, part, start, msel]

theorem State.leaveIfReady_cases :
    s.leaveIfReady = s ∨ ∃ d, s.leaveIfReady = s.depart d := by
  unfold State.leaveIfReady
  split
  · exact .inr ⟨_, rfl⟩
  · exact .inl rfl

theorem State.leaveIfReady_of_window (msel : s.os.msel ≠ none) : s.leaveIfReady = s := by
  unfold State.leaveIfReady
  split
  · contradiction
  · rfl

/-- Whether the part leaves or not, these parts of it stay. -/
theorem State.leaveIfReady_sameBut :
    s.sameBut s.leaveIfReady [.os, .port, .journal, .drain, .up] := by
  obtain same | ⟨d, same⟩ := s.leaveIfReady_cases <;> rw [same]
  · exact s.sameBut_refl _
  · exact s.depart_sameBut d

theorem State.leaveIfReady_mode :
    s.leaveIfReady.os.mode = s.os.mode ∧ s.leaveIfReady.os.msel = s.os.msel ∧
      s.leaveIfReady.port.rx = s.port.rx := by
  obtain same | ⟨d, same⟩ := s.leaveIfReady_cases <;> rw [same]
  · exact ⟨rfl, rfl, rfl⟩
  · rw [State.depart_os]; exact ⟨rfl, rfl, s.depart_rx d⟩

end

/-! ## The MSEL window (R166) -/

/-- The state at the end of the MSEL window, before the part leaves STARTING. -/
def State.windowEnded (s : State) (n : Nat) : State :=
  let t : State :=
    { s.advanceTo mselWindow with
      os := { s.os with msel := none, mode := modeOfPulses n }
      port := { s.port with rx := if modeOfPulses n = .off then .stopped else .hunt } }
  if n = 0 ∨ n = 3 ∨ n = 5 then t else t.record .mselInvalid none none (min n 255)

theorem State.windowEnded_os (s : State) (n : Nat) :
    (s.windowEnded n).os = { s.os with msel := none, mode := modeOfPulses n } := by
  unfold State.windowEnded; dsimp only; split <;> rfl

theorem State.windowEnded_port (s : State) (n : Nat) :
    (s.windowEnded n).port =
      { s.port with rx := if modeOfPulses n = .off then .stopped else .hunt } := by
  unfold State.windowEnded; dsimp only; split <;> rfl

theorem State.windowEnded_log (s : State) (n : Nat) :
    (s.windowEnded n).log =
      if n = 0 ∨ n = 3 ∨ n = 5 then s.log
      else
        pushRecord
          { stamp := BitVec.ofNat 32 (max s.now 5000 / 1000), kind := .mselInvalid, member := none,
            page := none, detail := BitVec.ofNat 8 (min n 255), lost := false, read := false }
          s.log := by
  unfold State.windowEnded; dsimp only; split <;> rfl

theorem State.windowEnded_sameBut (s : State) (n : Nat) :
    (s.advanceTo mselWindow).sameBut (s.windowEnded n) [.os, .port, .log] := by
  intro p hp
  unfold State.windowEnded; dsimp only
  split <;> cases p <;> simp_all [State.sameAt]

theorem modeOfPulses_open (n : Nat) :
    (if modeOfPulses n = .off then Receiver.stopped else .hunt) =
      if n = 3 ∨ n = 5 then .hunt else .stopped := by
  unfold modeOfPulses
  by_cases three : n = 3
  · simp [three]
  · by_cases five : n = 5 <;> simp [three, five]

/-- Settles O13. -/
theorem mselWindowSetsTheMode : Obligations.MselWindowSetsTheMode := by
  intro s n running open_
  refine ⟨?_, ?_⟩
  · refine ⟨_, exec_next (execMselPulse s) rfl running (by simp only [open_]; rfl), ?_, ?_, ?_, ?_⟩
    iterate 3 rfl
    refine State.sameBut_trans ?_ (State.sameBut_mono (State.sameBut_settle _) (by simp))
    intro p hp; cases p <;> simp_all [State.sameAt]
  · obtain ⟨mode, msel, rx⟩ := (s.windowEnded n).leaveIfReady_mode
    have same := (s.windowEnded n).leaveIfReady_sameBut
    have before := s.windowEnded_sameBut n
    rw [State.windowEnded_os] at mode msel
    rw [State.windowEnded_port] at rx
    have kept : ∀ p, p ∉ [Part.os, .port, .journal, .drain, .up, .log] →
        (s.advanceTo mselWindow).sameAt (s.windowEnded n).leaveIfReady p := fun p hp =>
      State.sameBut_trans (State.sameBut_mono before (by simp)) (State.sameBut_mono same (by simp)) p hp
    refine ⟨_, exec_next (u := (s.windowEnded n).leaveIfReady) (execMselWindowEnd s) rfl running
      (by simp only [open_]; rfl), kept .now (by simp), msel, mode, rx.trans (modeOfPulses_open n),
      (same .log (by simp)).trans (s.windowEnded_log n), kept .members (by simp),
      kept .read (by simp), kept .landing (by simp), kept .ds (by simp), fun d part start => ?_⟩
    have os := s.windowEnded_os n
    have ready := (s.windowEnded n).leaveIfReady_of_ready (d := d) (os ▸ part) (os ▸ start)
      (by rw [os])
    have drain : (s.windowEnded n).drain = s.drain := before .drain (by simp)
    have left : (s.windowEnded n).leaveIfReady.os =
        { s.os with
          msel := none, mode := modeOfPulses n, part := (s.departed d).1,
          cause := (s.departed d).2, start := none, everLeft := true } := by
      rw [ready, State.depart_os, os]
      simp [State.departed, drain]
    have released : (s.windowEnded n).leaveIfReady.inReset = false :=
      (kept .inReset (by simp)).trans running
    refine ⟨congrArg (·.start) left, ?_, fun run low => ?_, fun run high => ⟨?_, ?_⟩,
      fun strap => ?_, fun reason invalid => ?_⟩
    · simp [State.readyHigh, released, left]
    · simp [left, run, State.departed, low]
    · simp [left, run, State.departed, high]
    · rw [run] at ready
      have episode := (s.windowEnded n).depart_episode (drain.symm ▸ high)
      have now : (s.windowEnded n).leaveIfReady.now = (s.windowEnded n).now := same .now (by simp)
      simp only [State.settle_drain, State.settle_now, now]
      rw [ready, episode]
    · simp [left, strap, State.departed]
    · simp [left, invalid, State.departed, State.alertLow, State.invalidAlert, released]

/-! ## The prepared state and the next probe (R84, R167) -/

section
variable (s : State)

theorem State.prepare_of_window {d : Prepared} (msel : s.os.msel ≠ none) :
    s.prepare d = { s with os := { s.os with start := some (.leaving d) } } :=
  State.leaveIfReady_of_window _ msel

theorem State.prepare_of_ready {d : Prepared} (part : s.os.part = .starting)
    (msel : s.os.msel = none) :
    (s.prepare d).os =
      { s.os with
        part := (s.departed d).1, cause := (s.departed d).2, start := none, everLeft := true } := by
  have eq : s.prepare d = State.depart _ d := State.leaveIfReady_of_ready _ part rfl msel
  rw [eq, State.depart_os]; cases d <;> rfl

theorem State.prepare_sameBut (d : Prepared) :
    s.sameBut (s.prepare d) [.os, .port, .journal, .drain, .up] := by
  refine State.sameBut_trans ?_ (State.leaveIfReady_sameBut _)
  intro p hp; cases p <;> simp_all [State.sameAt]

theorem State.probeNext_sameBut (n : Nat) :
    s.sameBut (s.probeNext n) [.os, .port, .journal, .drain, .up, .ds] := by
  unfold State.probeNext
  split
  · refine State.sameBut_trans ?_ (State.sameBut_mono (State.raise_sameBut _ _) (by simp))
    intro p hp; cases p <;> simp_all [State.sameAt]
  · exact State.sameBut_mono (s.prepare_sameBut .run) (by simp)

end

/-- The probe goes on from an index (R84, R171), for a state with the part state, the MSEL window and the
PFAIL level of the one before. -/
theorem State.probesFrom_probeNext {s u : State} (n : Nat) (running : u.inReset = false)
    (part : u.os.part = s.os.part) (msel : u.os.msel = s.os.msel)
    (pfail : u.drain.pfailAsserted = s.drain.pfailAsserted) :
    s.probesFrom (u.probeNext n).settle n := by
  have info : ∀ k, (u.probeNext n).settle.info k = u.info k :=
    State.info_congr (s := u) (u.probeNext_sameBut n .members (by simp))
  refine ⟨fun k from_ journaled first => ?_, fun never => ?_⟩
  · rw [info] at journaled
    cases next : u.nextProbed n with
    | none => rw [State.nextProbed_none next k from_] at journaled; cases journaled
    | some m =>
      obtain ⟨fromM, journaledM, firstM⟩ := State.nextProbed_some next
      have same : k = m := by
        rcases lt_trichotomy k m with lt | same | gt
        · rw [firstM k from_ lt] at journaled; cases journaled
        · exact same
        · have := first m fromM gt
          rw [info, journaledM] at this; cases this
      subst same
      refine ⟨?_, ?_, ?_⟩ <;> simp [State.probeNext, next, part]
  · cases next : u.nextProbed n with
    | some m =>
      obtain ⟨fromM, journaledM, -⟩ := State.nextProbed_some next
      have := never m fromM
      rw [info, journaledM] at this; cases this
    | none =>
      have goes : u.probeNext n = u.prepare .run := by simp [State.probeNext, next]
      rw [goes]
      refine ⟨fun window => ?_, fun starting over_ => ?_⟩
      · rw [State.prepare_of_window u (msel ▸ window)]; exact ⟨part, rfl⟩
      · have os := u.prepare_of_ready (d := .run) (part.trans starting) (msel.trans over_)
        have released : (u.prepare .run).inReset = false :=
          (u.prepare_sameBut .run .inReset (by simp)).trans running
        refine ⟨?_, ?_, ?_⟩
        · simp [os]
        · simp [State.readyHigh, os, released]
        · simp [os, State.departed, pfail]

/-! ## The descriptor read of start-up (R169 to R171) -/

/-- An invalid descriptor writes its record, and PASSTHROUGH is prepared (R171). -/
theorem State.rejectDescriptor_spec (s : State) (reason : Nat) :
    (s.rejectDescriptor reason).log =
      pushRecord
        { stamp := s.stamp, kind := .descriptorInvalid, member := none, page := none,
          detail := BitVec.ofNat 8 reason, lost := false, read := false } s.log ∧
    (s.os.msel ≠ none →
      (s.rejectDescriptor reason).os.start = some (.leaving (.passInvalid reason))) ∧
    (s.os.part = .starting → s.os.msel = none →
      (s.rejectDescriptor reason).os.part = .passthrough ∧
        (s.rejectDescriptor reason).os.cause = some .invalid) := by
  refine ⟨?_, fun window => ?_, fun part msel => ?_⟩
  · exact State.prepare_sameBut _ _ .log (by simp)
  · have eq := (s.record .descriptorInvalid none none reason).prepare_of_window
      (d := .passInvalid reason) window
    rw [State.rejectDescriptor, eq]
  · have os := (s.record .descriptorInvalid none none reason).prepare_of_ready
      (d := .passInvalid reason) part msel
    rw [State.rejectDescriptor, os]; exact ⟨rfl, rfl⟩

theorem State.rejectDescriptor_sameBut (s : State) (reason : Nat) :
    s.sameBut (s.rejectDescriptor reason) [.log, .os, .port, .journal, .drain, .up] := by
  refine State.sameBut_trans ?_ (State.sameBut_mono (State.prepare_sameBut _ _) (by simp))
  intro p hp; cases p <;> simp_all [State.sameAt]

/-- The table that a valid image fills (R78). -/
def State.tabled (s : State) (image : List Byte) : State :=
  { s with
    members := (usedRecords image).map fun r => { info := r, state := .unset, pointer := 0 }
    os := { s.os with globals := some (readGlobals image), cause := none } }

theorem State.acceptDescriptor_eq (s : State) (image : List Byte) :
    s.acceptDescriptor image = (s.tabled image).probeNext 0 := rfl

theorem State.prepare_globals (s : State) (d : Prepared) :
    (s.prepare d).os.globals = s.os.globals := by
  unfold State.prepare
  generalize hu : ({ s with os := { s.os with start := some (.leaving d) } } : State) = u
  have same : u.os.globals = s.os.globals := by rw [← hu]
  obtain eq | ⟨d', eq⟩ := u.leaveIfReady_cases <;> rw [eq]
  · exact same
  · rw [State.depart_os]; exact same

theorem State.probeNext_globals (s : State) (n : Nat) :
    (s.probeNext n).os.globals = s.os.globals := by
  unfold State.probeNext
  split
  · simp
  · exact s.prepare_globals .run

/-- A refused access within its window is due again 1 ms later, and is not made again after it (R84, R169). -/
theorem Access.retryFrom_eq {a : Access} {w : Micros} (h : a.window = some w) (now : Micros) :
    a.retryFrom now =
      { asking := if now + 1000 < w + 10000 then .dueAt (now + 1000) else .noMore,
        window := some w } := by
  obtain ⟨asking, window⟩ := a
  obtain rfl : window = some w := h
  by_cases fits : now + 1000 < w + 10000
  · rw [if_pos fits]; exact if_pos fits
  · rw [if_neg fits]; exact if_neg fits

section
variable {s : State} {h : Holder} {a : Access}

theorem exec_startReadEnd {report : ReadReport} (running : s.inReset = false)
    (busy : s.ds.ctl = .busy h) (req : h.req = .descriptorRead .startUp)
    (fits : ∀ dev word n bytes, h.txn = .read dev word n → report = .completed bytes →
      bytes.length = n) :
    exec (.descriptorReadEnd report) s = .next (s.endTransaction.startReadEnd report).settle := by
  refine (exec_nextRead (execDescriptorReadEnd report s) rfl running busy (by rw [req]; rfl)
    fits).trans ?_
  simp only [req, if_true]

end

/-- Settles O14. -/
theorem descriptorReadEndTakesTheImage : Obligations.DescriptorReadEndTakesTheImage := by
  intro s h a image dev word running busy req txn length start progress part
  have start' : s.endTransaction.os.start = some (.descriptorRead a) := start
  have completed : exec (.descriptorReadEnd (.completed image)) s =
      .next (s.endTransaction.takeDescriptor image).settle := by
    rw [exec_startReadEnd running busy req fun dev' word' n bytes txn' done => by
      rw [txn] at txn'; cases txn'; cases done; exact length]
    simp [State.startReadEnd, start, progress]
  have nacked : ∀ b, exec (.descriptorReadEnd (.nack b)) s =
      .next (s.endTransaction.startReadEnd (.nack b)).settle := fun b =>
    exec_startReadEnd running busy req (by intros; contradiction)
  have refused : exec (.descriptorReadEnd (.nack .deviceW)) s =
      .next (s.endTransaction.setStartAccess (a.retryFrom s.now)).settle := by
    rw [nacked]; simp [State.startReadEnd, start, progress]
  have frame : ∀ b, s.sameBut (s.endTransaction.setStartAccess b).settle [.os, .ds] := fun b => by
    refine State.sameBut_trans ?_ (State.sameBut_mono (State.sameBut_settle _) (by simp))
    intro p hp; cases p <;> simp_all [State.sameAt]
  refine ⟨fun valid => ?_, fun reason invalid => ?_, fun w window fits => ?_, fun w window late => ?_,
    fun b other => ?_⟩
  · have accepts : s.endTransaction.takeDescriptor image =
        (s.endTransaction.tabled image).probeNext 0 := by
      have valid' : validate s.endTransaction.os.ads image = none := valid
      simp only [State.takeDescriptor, valid', State.acceptDescriptor_eq]
    have same := (s.endTransaction.tabled image).probeNext_sameBut 0
    refine ⟨_, completed, ?_⟩
    rw [accepts]
    exact ⟨same .members (by simp), State.probeNext_globals _ 0, same .log (by simp),
      State.probesFrom_probeNext 0 running rfl rfl rfl⟩
  · have rejects : s.endTransaction.takeDescriptor image =
        s.endTransaction.rejectDescriptor reason := by
      have invalid' : validate s.endTransaction.os.ads image = some reason := invalid
      simp only [State.takeDescriptor, invalid']
    obtain ⟨log, window, over_⟩ := s.endTransaction.rejectDescriptor_spec reason
    refine ⟨_, completed, ?_⟩
    rw [rejects]
    exact ⟨State.rejectDescriptor_sameBut _ _ .members (by simp), State.prepare_globals _ _, log,
      window, over_ part⟩
  · refine ⟨_, refused, ?_, rfl, frame _⟩
    rw [Access.retryFrom_eq window, if_pos fits]
    exact State.setStartAccess_descriptorRead start' _
  · refine ⟨_, refused, ?_, rfl, frame _⟩
    rw [Access.retryFrom_eq window, if_neg (Nat.not_lt.mpr late)]
    exact State.setStartAccess_descriptorRead start' _
  · have rejects : s.endTransaction.startReadEnd (.nack b) =
        s.endTransaction.rejectDescriptor 1 := by
      cases b <;> simp_all [State.startReadEnd]
    refine ⟨_, nacked b, ?_⟩
    rw [rejects]
    exact ⟨State.rejectDescriptor_sameBut _ _ .members (by simp),
      (s.endTransaction.rejectDescriptor_spec 1).1⟩

/-- Settles O15. -/
theorem startUpAccessRepeatsInItsWindow : Obligations.StartUpAccessRepeatsInItsWindow := by
  intro s due w running
  refine ⟨fun start inTime => ?_, fun asking start => ?_, fun m start inTime => ?_⟩
  · have start' : (s.advanceTo due).os.start =
        some (.descriptorRead { asking := .dueAt due, window := some w }) := start
    refine ⟨_, exec_next (u := (s.advanceTo due).askStart (some w)) (execDescriptorReadRetryDue s) rfl
      running ?_, ?_⟩
    · simp only [start]; exact if_pos inTime
    · rw [State.askStart_eq (State.startRequest_descriptorRead start')]
      refine ⟨by simp, by simp, ?_, ?_⟩
      · simp only [State.settle_os_start, State.raise_os]
        exact State.setStartAccess_descriptorRead start' _
      · refine State.sameBut_trans ?_ (State.sameBut_mono (State.sameBut_settle _) (by simp))
        refine State.sameBut_trans ?_ (State.sameBut_mono (State.raise_sameBut _ _) (by simp))
        intro p hp; cases p <;> simp_all [State.sameAt]
  · have eq := exec_next (u := ((s.advanceTo (w + accessWindow)).withdraw
      (.descriptorRead .startUp)).rejectDescriptor 1) (execAnswerWindowEnd s) rfl running
      (by simp only [start])
    obtain ⟨log, window, ended⟩ := ((s.advanceTo (w + accessWindow)).withdraw
      (.descriptorRead .startUp)).rejectDescriptor_spec 1
    have same := ((s.advanceTo (w + accessWindow)).withdraw
      (.descriptorRead .startUp)).rejectDescriptor_sameBut 1
    refine ⟨_, eq, same .now (by simp), ?_, same .members (by simp), log, window, ended⟩
    have ds : (State.rejectDescriptor _ 1).ds = _ := same .ds (by simp)
    rw [State.settle_ds, ds]
    exact State.not_mem_withdraw _ _
  · have start' : (s.advanceTo due).os.start =
        some (.probing m { asking := .dueAt due, window := some w }) := start
    refine ⟨_, exec_next (u := (s.advanceTo due).askStart (some w)) (execProbeRetryDue s) rfl
      running ?_, ?_⟩
    · simp only [start]; exact if_pos inTime
    · rw [State.askStart_eq (State.startRequest_probing start')]
      refine ⟨by simp, by simp, ?_, ?_⟩
      · simp only [State.settle_os_start, State.raise_os]
        exact State.setStartAccess_probing start' _
      · refine State.sameBut_trans ?_ (State.sameBut_mono (State.sameBut_settle _) (by simp))
        refine State.sameBut_trans ?_ (State.sameBut_mono (State.raise_sameBut _ _) (by simp))
        intro p hp; cases p <;> simp_all [State.sameAt]

/-- The moving on of the probe leaves the members but the one whose probe has ended (R84). -/
theorem State.probeNext_setMember {u : State} {m : MemberIx} {st : MemberState} {n : Nat}
    (row : m.val < u.members.length) {v : State} (table : v.members = (u.setMember m st).members) :
    (v.probeNext n).settle.memberState m = st ∧
      (∀ k, k ≠ m → (v.probeNext n).settle.memberState k = u.memberState k) ∧
      ∀ k, (v.probeNext n).settle.info k = u.info k := by
  have members : (v.probeNext n).settle.members = (u.setMember m st).members :=
    (v.probeNext_sameBut n .members (by simp)).trans table
  refine ⟨?_, fun k other => ?_, fun k => ?_⟩
  · rw [State.memberState_congr members, State.memberState_setMember row]
  · rw [State.memberState_congr members, State.memberState_setMember_ne other]
  · rw [State.info_congr members, State.info_setMember]

/-- The probe that moves on is another member's. -/
theorem State.not_mem_probeNext {u : State} {m : MemberIx} {n : Nat} (h : .probe m ∉ u.ds.waiting)
    (lt : m.val < n) : .probe m ∉ (u.probeNext n).ds.waiting := by
  unfold State.probeNext
  split
  · rename_i k next
    have from_ := (State.nextProbed_some next).1
    rw [State.mem_raise]
    rintro (same | old)
    · cases same; omega
    · exact h old
  · have ds : (u.prepare .run).ds = u.ds := u.prepare_sameBut .run .ds (by simp)
    rw [ds]; exact h

/-- Settles O16. -/
theorem probeSetsTheMemberState : Obligations.ProbeSetsTheMemberState := by
  intro s m w running row
  refine ⟨fun h busy req start => ?_, fun asking start => ?_⟩
  · have start' : s.endTransaction.os.start =
        some (.probing m { asking := .inProgress, window := some w }) := start
    have ended : ∀ ack, exec (.probeEnd ack) s =
        .next (s.endTransaction.probeEnded m ack).settle := fun ack =>
      exec_next (execProbeEnd ack s) rfl running (by simp only [busy, req])
    have frame : ∀ b, s.sameBut (s.endTransaction.setStartAccess b).settle [.os, .ds] := fun b => by
      refine State.sameBut_trans ?_ (State.sameBut_mono (State.sameBut_settle _) (by simp))
      intro p hp; cases p <;> simp_all [State.sameAt]
    have refused : s.endTransaction.probeEnded m false = s.endTransaction.setStartAccess
        { asking := if s.now + 1000 < w + 10000 then .dueAt (s.now + 1000) else .noMore,
          window := some w } := by
      rw [← Access.retryFrom_eq (a := { asking := .inProgress, window := some w }) rfl]
      simp [State.probeEnded, start]
    refine ⟨?_, fun fits => ?_, fun late => ?_⟩
    · have goes : s.endTransaction.probeEnded m true =
          (s.endTransaction.setMember m .online).probeNext (m.val + 1) := by
        simp [State.probeEnded, start]
      obtain ⟨mine, others, info⟩ := State.probeNext_setMember (u := s) (n := m.val + 1) row
        (v := s.endTransaction.setMember m .online) rfl
      refine ⟨_, ended true, ?_⟩
      rw [goes]
      exact ⟨mine, others, State.probeNext_sameBut _ _ .log (by simp), info,
        State.probesFrom_probeNext _ running rfl rfl rfl⟩
    · refine ⟨_, ended false, ?_⟩
      rw [refused, if_pos fits]
      exact ⟨rfl, State.setStartAccess_probing start' _, rfl, frame _⟩
    · refine ⟨_, ended false, ?_⟩
      rw [refused, if_neg (Nat.not_lt.mpr late)]
      exact ⟨rfl, State.setStartAccess_probing start' _, rfl, frame _⟩
  · have eq := exec_next (execProbeWindowEnd s) rfl running (by simp only [start]; rfl)
    obtain ⟨mine, others, info⟩ := State.probeNext_setMember (u := s) (n := m.val + 1) row
      (v := (((s.advanceTo (w + accessWindow)).withdraw (.probe m)).setMember m .offline).record
        .memberOffline (some m) none 0) rfl
    refine ⟨_, eq, mine, others, ?_, info, State.probesFrom_probeNext _ running rfl rfl rfl, ?_⟩
    · exact State.not_mem_probeNext (State.not_mem_withdraw (s.advanceTo (w + accessWindow)) _)
        (Nat.lt_succ_self _)
    · exact State.probeNext_sameBut _ _ .log (by simp)

end Sys2Proof.Machine
end

section
/-! The upstream engine: START and STOP, the address byte, and writes to journaled members (O18 to O23,
O27). -/

namespace Sys2Proof.Machine

/-- The quiesce timer is outside every frame. -/
theorem State.sameBut_settled {s u : State} {l : List Part} (h : s.sameBut u l) :
    s.sameBut u.settle l :=
  State.sameBut_trans h (State.sameBut_mono (State.sameBut_settle _) (by simp))

/-! ## START and STOP (R96, R116) -/

theorem State.wake_part (s : State) :
    s.wake.os.part = (if s.os.part = .doze then s.os.ret.getD .run else s.os.part) ∧
      s.wake.os.mode = s.os.mode := by
  unfold State.wake
  split <;> simp_all

/-- Settles O18. -/
theorem startAndStopFrameTransactions : Obligations.StartAndStopFrameTransactions := by
  intro s running
  refine ⟨fun phase => ?_, fun phase => ?_⟩
  · obtain ⟨part, mode⟩ := s.wake_part
    refine ⟨s.wake.toAddress.settle, exec_next (execUpstreamStart s) rfl running ?_, ?_, part, mode,
      State.sameBut_settled ?_⟩
    · rcases phase with phase | phase | phase <;> simp only [phase]
    · simp [State.toAddress]
    · refine State.sameBut_trans (State.sameBut_mono s.wake_sameBut (by simp)) ?_
      intro p hp; cases p <;> simp_all [State.sameAt]
  · refine ⟨s.toIdle.settle, exec_next (execUpstreamStop s) rfl running ?_, rfl,
      State.sameBut_settled ?_⟩
    · rcases phase with phase | phase <;> simp only [phase]
    · intro p hp; cases p <;> simp_all [State.sameAt]

/-! ## The address byte (R97, R98) -/

/-- The direction bit is taken first (R95). -/
def State.directed (s : State) (dir : Dir) : State := { s with up := { s.up with dir := some dir } }

theorem State.directed_sameBut (s : State) (dir : Dir) : s.sameBut (s.directed dir) [.up] := by
  intro p hp; cases p <;> simp_all [State.sameAt, State.directed]

theorem exec_addressByte {s : State} (running : s.inReset = false) (phase : s.up.phase = .address)
    (dev : DevAddr) (dir : Dir) :
    exec (.addressByte dev dir) s = .next (s.classify dev dir).settle :=
  exec_next (execAddressByte dev dir s) rfl running (by simp only [phase])

section
variable {s : State} {dev : DevAddr} {dir : Dir}

theorem State.classify_journaled {m : MemberIx} (part : s.os.part = .run)
    (member : s.journaledAt dev = some m) :
    s.classify dev dir = (s.directed dir).serveMember m dir := by
  have member' : (s.directed dir).journaledAt dev = some m := member
  simp only [State.classify, part]
  change (match (s.directed dir).journaledAt dev with
    | some m => (s.directed dir).serveMember m dir
    | none => (s.directed dir).requestRelay dev true) = _
  rw [member']

theorem State.classify_refused (part : s.os.part = .starting ∨ s.os.part = .flush ∨
    s.os.part = .haltDown) : s.classify dev dir = (s.directed dir).refuseAddress := by
  rcases part with part | part | part <;> simp only [State.classify, part] <;> rfl

theorem State.classify_relayed
    (part : s.os.part = .passthrough ∨ (s.os.part = .run ∧ s.journaledAt dev = none)) :
    s.classify dev dir = (s.directed dir).requestRelay dev (s.os.part == .run) := by
  rcases part with part | ⟨part, none_⟩
  · simp only [State.classify, part]; rfl
  · have none' : (s.directed dir).journaledAt dev = none := none_
    simp only [State.classify, part]
    change (match (s.directed dir).journaledAt dev with
      | some m => (s.directed dir).serveMember m dir
      | none => (s.directed dir).requestRelay dev true) = _
    rw [none']; rfl

theorem State.directed_refuse_sameBut : s.sameBut (s.directed dir).refuseAddress [.up] := by
  intro p hp; cases p <;> simp_all [State.sameAt, State.directed]

end

/-! ## Admission (R100) -/

section
variable {s : State} {m : MemberIx}

theorem State.freeCount_eq_zero_iff : s.freeCount = 0 ↔ 32 ≤ s.journal.length := by
  simp [State.freeCount, Config.journalSlots]; omega

theorem State.admission_refuses (h : s.memberState m = .held ∨ 32 ≤ s.journal.length) :
    s.serveMember m .write = s.refuseAddress :=
  if_pos (h.imp_right State.freeCount_eq_zero_iff.mpr)

/-- An admitted write opens with nothing received (R100). -/
def State.admitted (s : State) (m : MemberIx) : State :=
  ((s.setPhase (.write { member := m, word := [], dataCount := 0, mark := .clear })).say
    [.ack]).startIdle

theorem State.admitted_sameBut (s : State) (m : MemberIx) : s.sameBut (s.admitted m) [.up] := by
  intro p hp; cases p <;> simp_all [State.sameAt, State.admitted]

theorem State.admission_admits (state : s.memberState m ≠ .held) (room : s.journal.length < 32) :
    s.serveMember m .write = s.admitted m := by
  refine if_neg fun refused => ?_
  rcases refused with held | full
  · exact state held
  · have := State.freeCount_eq_zero_iff.mp full; omega

end

/-- Settles O19. -/
theorem admissionDecidesWrites : Obligations.AdmissionDecidesWrites := by
  intro s dev m running phase part member
  have goes := exec_addressByte running phase dev .write
  rw [State.classify_journaled part member] at goes
  by_cases refused : s.memberState m = .held ∨ 32 ≤ s.journal.length
  · rw [State.admission_refuses (s := s.directed .write) refused] at goes
    refine ⟨_, goes, State.sameBut_settled State.directed_refuse_sameBut, fun _ => rfl,
      fun free room => ?_⟩
    rcases refused with held | full
    · exact absurd held free
    · omega
  · obtain ⟨state, room⟩ := not_or.mp refused
    rw [State.admission_admits (s := s.directed .write) state (Nat.lt_of_not_le room)] at goes
    exact ⟨_, goes, State.sameBut_settled (State.sameBut_trans (s.directed_sameBut .write)
      (State.admitted_sameBut _ m)), fun no => absurd no refused, fun _ _ => ⟨rfl, rfl⟩⟩

/-- Settles O21. -/
theorem otherAddressesAreRefusedOrRelayed : Obligations.OtherAddressesAreRefusedOrRelayed := by
  intro s dev dir running
  refine ⟨fun phase => ⟨fun part => ?_, fun part => ?_⟩, fun inRun t0 phase => ?_⟩
  · have goes := exec_addressByte running phase dev dir
    rw [State.classify_refused part] at goes
    exact ⟨_, goes, rfl, State.sameBut_settled State.directed_refuse_sameBut⟩
  · have goes := exec_addressByte running phase dev dir
    rw [State.classify_relayed part] at goes
    refine ⟨_, goes, ?_, ?_, ?_, State.sameBut_settled ?_⟩
    · simp [State.requestRelay]; rfl
    · simp [State.requestRelay, State.usclHeld]
    · simp [State.requestRelay]
    · refine State.sameBut_trans ?_ (State.sameBut_mono (State.raise_sameBut _ _) (by simp))
      intro p hp; cases p <;> simp_all [State.sameAt, State.directed]
  · refine ⟨((s.advanceTo (t0 + s.relayHold)).refuseRelay).settle,
      exec_next (execRelayHoldExpiry s) rfl running (by simp only [phase]), ?_, rfl, ?_,
      State.sameBut_settled ?_⟩
    · simp [State.refuseRelay, State.relayHold, ms, defaultHoldMs]
    · exact State.not_mem_withdraw _ _
    · intro p hp; cases p <;> simp_all [State.sameAt, State.refuseRelay]

/-! ## The due byte and its source (R62, R66, R69, R71) -/

section
variable {s : State} {r : OpenRead} (h : s.read = some r)
include h

theorem State.serveDue_underrun (cond : r.cond = .underrun) : s.serveDue = s.serveByte 0xFF := by
  simp [State.serveDue, h, cond]

theorem State.serveDue_overlay {b : Byte} (cond : r.cond ≠ .underrun)
    (overlay : s.overlayByte r.member (s.pointer r.member) = some b) : s.serveDue = s.serveByte b := by
  simp [State.serveDue, h, cond, overlay]

variable (cond : r.cond ≠ .underrun)
  (overlay : s.overlayByte r.member (s.pointer r.member) = none)
include cond overlay

theorem State.serveDue_buffer {f : FetchBuffer} {b : Byte} (buffer : r.buffer = some f)
    (byte : f.byteAt (s.pointer r.member) = some b) : s.serveDue = s.serveByte b := by
  simp [State.serveDue, h, cond, overlay, buffer, byte]

variable (missing : ∀ f, r.buffer = some f → f.byteAt (s.pointer r.member) = none)
include missing

omit h cond overlay in
theorem State.serveDue_bufferless : (r.buffer.bind fun f => f.byteAt (s.pointer r.member)) = none :=
  Option.bind_eq_none_iff.mpr missing

theorem State.serveDue_haltDown (part : s.os.part = .haltDown) : s.serveDue = s.underrun 2 := by
  simp [State.serveDue, h, cond, overlay, State.serveDue_bufferless missing, part,
    State.fetchFailed]

theorem State.serveDue_cycle (part : s.os.part ≠ .haltDown)
    (cycle : s.memberState r.member = .cycle) :
    s.serveDue =
      { s with
        read :=
          some
            { r with
              cond := .waiting s.now { state := .heldForCycle, addr := s.pointer r.member } }
      }.stopIdle := by
  simp [State.serveDue, h, cond, overlay, State.serveDue_bufferless missing, part,
    cycle]

theorem State.serveDue_fetch (part : s.os.part ≠ .haltDown)
    (free : s.memberState r.member ≠ .cycle) :
    s.serveDue =
      ({ s with
        read :=
          some
            { r with
              cond := .waiting s.now { state := .waitingGrant, addr := s.pointer r.member } }
      }.stopIdle).raise .fetch := by
  simp [State.serveDue, h, cond, overlay, State.serveDue_bufferless missing, part,
    free]

end

/-- What the next byte of a read can be, outside HALT_DOWN: served, or fetched. -/
theorem State.serveDue_cases {s : State} {r : OpenRead} (h : s.read = some r)
    (cond : r.cond ≠ .underrun) (part : s.os.part ≠ .haltDown) :
    (∃ b, s.serveDue = s.serveByte b) ∨
    ∃ f, s.serveDue = { s with read := some { r with cond := .waiting s.now f } }.stopIdle ∨
      s.serveDue =
        ({ s with read := some { r with cond := .waiting s.now f } }.stopIdle).raise .fetch := by
  cases ov : s.overlayByte r.member (s.pointer r.member) with
  | some b => exact .inl ⟨b, State.serveDue_overlay h cond ov⟩
  | none =>
    cases buf : r.buffer.bind fun f => f.byteAt (s.pointer r.member) with
    | some b =>
      obtain ⟨f, buffer, byte⟩ := Option.bind_eq_some_iff.mp buf
      exact .inl ⟨b, State.serveDue_buffer h cond ov buffer byte⟩
    | none =>
      have missing := Option.bind_eq_none_iff.mp buf
      by_cases cycle : s.memberState r.member = .cycle
      · exact .inr ⟨_, .inl (State.serveDue_cycle h cond ov missing part cycle)⟩
      · exact .inr ⟨_, .inr (State.serveDue_fetch h cond ov missing part cycle)⟩

theorem State.serveByte_sameBut (s : State) (b : Byte) : s.sameBut (s.serveByte b) [.up] := by
  intro p hp; cases p <;> simp_all [State.sameAt, State.serveByte]

/-! ## The busy policy (R59) -/

/-- A read as it opens (R57). -/
def OpenRead.opened (m : MemberIx) : OpenRead :=
  { member := m, cond := .serving, buffer := none, recorded := false, ended := false }

/-- An open read before its first byte is served: acknowledged, with the member's issue withdrawn (R33,
R57). -/
def State.readOpened (s : State) (m : MemberIx) : State :=
  ({ (s.setPhase .read).say [.ack] with
      read := some (.opened m) }.startIdle).withdraw (.issue m)

theorem State.readOpened_sameBut (s : State) (m : MemberIx) :
    s.sameBut (s.readOpened m) [.up, .read, .ds] := by
  intro p hp; cases p <;> simp_all [State.sameAt, State.readOpened]

theorem State.openRead_eq (s : State) (m : MemberIx) : s.openRead m = (s.readOpened m).serveDue := rfl

theorem State.busyPolicy_refused {s : State} {m : MemberIx} (busy : (s.slot m).isSome = true)
    (nack : (s.info m).hold = false) : s.busyPolicy m = s.refuseAddress := by
  simp [State.busyPolicy, busy, nack]

theorem State.busyPolicy_opens {s : State} {m : MemberIx}
    (open_ : s.slot m = none ∨ (s.info m).hold = true) : s.busyPolicy m = s.openRead m := by
  rcases open_ with free | hold
  · simp [State.busyPolicy, free]
  · simp [State.busyPolicy, hold]

/-- Settles O20. -/
theorem busyPolicyDecidesReads : Obligations.BusyPolicyDecidesReads := by
  intro s dev m running phase part member
  have goes := exec_addressByte running phase dev .read
  rw [State.classify_journaled part member] at goes
  refine ⟨fun busy nack => ?_, fun open_ => ?_⟩
  · have eq : (s.directed .read).serveMember m .read = (s.directed .read).refuseAddress :=
      State.busyPolicy_refused (s := s.directed .read) busy nack
    rw [eq] at goes
    exact ⟨_, goes, rfl, State.sameBut_settled State.directed_refuse_sameBut⟩
  · have eq : (s.directed .read).serveMember m .read = ((s.directed .read).readOpened m).serveDue :=
      (State.busyPolicy_opens (s := s.directed .read) open_).trans (State.openRead_eq _ m)
    rw [eq] at goes
    generalize hu : (s.directed .read).readOpened m = u at goes
    have read : u.read = some (.opened m) := by rw [← hu]; rfl
    have up : u.up = { phase := .read, dir := some .read, idle := some s.now, drive := [.ack] } := by
      rw [← hu]; rfl
    have opened : s.sameBut u [.up, .read, .ds] := by
      rw [← hu]
      exact State.sameBut_trans (State.sameBut_mono (s.directed_sameBut .read) (by simp))
        (State.readOpened_sameBut _ m)
    have noIssue : .issue m ∉ u.ds.waiting := by
      rw [← hu]; exact State.not_mem_withdraw _ _
    have pointer : u.pointer m = s.pointer m := State.pointer_congr (s := s) (opened .members (by simp)) m
    have overlay : ∀ a, u.overlayByte m a = s.overlayByte m a := 
      State.overlayByte_congr (s := s) (opened .journal (by simp)) (opened .members (by simp)) m
    have state : u.memberState m = s.memberState m :=
      State.memberState_congr (s := s) (opened .members (by simp)) m
    have now : u.now = s.now := opened .now (by simp)
    have partU : u.os.part ≠ .haltDown := by rw [← hu]; change s.os.part ≠ _; rw [part]; nofun
    clear hu
    have fromU : ∀ {t : State} {l : List Part}, u.sameBut t l → (∀ p ∈ l, p ∈ [Part.up, .read, .ds]) →
        s.sameBut t.settle [.up, .read, .ds] := fun same sub =>
      State.sameBut_settled (State.sameBut_trans opened (State.sameBut_mono same sub))
    have serving : (OpenRead.opened m).cond ≠ .underrun := by nofun
    cases ov : s.overlayByte m (s.pointer m) with
    | some b =>
      have ov' : u.overlayByte (OpenRead.opened m).member (u.pointer (OpenRead.opened m).member) =
          some b := (congrArg _ pointer).trans ((overlay _).trans ov)
      rw [State.serveDue_overlay read serving ov'] at goes
      refine ⟨_, _, goes, ?_, ?_, read, rfl, rfl, rfl, rfl, noIssue, ?_, nofun,
        fromU (l := [.up]) (u.serveByte_sameBut b) (by simp)⟩
      · simp [State.serveByte, up]
      · simp [State.serveByte, up]
      · rintro _ ⟨⟩
        refine ⟨rfl, ?_, ?_⟩
        · simp [State.usclHeld, State.serveByte, up, read, OpenRead.opened]
        · simp [State.serveByte, State.startIdle, State.alsoSay, up, now]
    | none =>
      have ov' : u.overlayByte (OpenRead.opened m).member (u.pointer (OpenRead.opened m).member) =
          none := (congrArg _ pointer).trans ((overlay _).trans ov)
      have missing : ∀ f, (OpenRead.opened m).buffer = some f →
        f.byteAt (u.pointer (OpenRead.opened m).member) = none := nofun
      by_cases cycle : s.memberState m = .cycle
      · rw [State.serveDue_cycle read serving ov' missing partU (state.trans cycle)] at goes
        refine ⟨_, _, goes, ?_, ?_, rfl, rfl, rfl, rfl, rfl, noIssue, nofun,
          fun _ => ⟨?_, ?_, fun _ => ?_, fun no => absurd cycle no⟩,
          fromU (l := [.up, .read]) ?_ (by simp)⟩
        · simp [up]
        · simp [up]
        · simp [State.usclHeld, up]
        · simp [State.stopIdle, up]
        · simp [now]; exact pointer
        · intro p hp; cases p <;> simp_all [State.sameAt]
      · rw [State.serveDue_fetch read serving ov' missing partU (fun no => cycle (state.symm.trans no))]
          at goes
        refine ⟨_, _, goes, ?_, ?_, State.raise_read _ _, rfl, rfl, rfl, rfl, ?_, nofun,
          fun _ => ⟨?_, ?_, fun no => absurd no cycle, fun _ => ⟨?_, ?_⟩⟩,
          fromU (l := [.up, .read, .ds]) ?_ (by simp)⟩
        · simp [up]
        · simp [up]
        · simp [noIssue]
        · simp [State.usclHeld, up]
        · simp [State.stopIdle, up]
        · simp [now]; exact pointer
        · simp
        · refine State.sameBut_trans ?_ (State.sameBut_mono (State.raise_sameBut _ _) (by simp))
          intro p hp; cases p <;> simp_all [State.sameAt]

end Sys2Proof.Machine
end

section
/-! Writes to journaled members (O22, O23, O27) and the end of the upstream phases (O28, O31). -/

namespace Sys2Proof.Machine

/-! ## Word-address and data bytes (R101, R102) -/

theorem State.wordComplete_iff {s : State} {w : OpenWrite} :
    s.wordComplete w = true ↔ (s.info w.member).wordWidth ≤ w.word.length := by
  simp [State.wordComplete]

/-- A word-address byte has been taken and acknowledged (R101). -/
def State.wordTaken (s : State) (w : OpenWrite) (b : Byte) : State :=
  ((s.setPhase (.write { w with word := w.word ++ [b] })).say [.ack]).startIdle

theorem State.wordTaken_sameBut (s : State) (w : OpenWrite) (b : Byte) :
    s.sameBut (s.wordTaken w b) [.up] := by
  intro p hp; cases p <;> simp_all [State.sameAt, State.wordTaken]

theorem State.bindLanding_sameBut (s : State) (m : MemberIx) (word : List Byte) :
    s.sameBut (s.bindLanding m word) [.members, .landing] := by
  intro p hp; cases p <;> simp_all [State.sameAt, State.bindLanding]

/-- Settles O22. -/
theorem wordAddressSetsPointerAndLanding : Obligations.WordAddressSetsPointerAndLanding := by
  intro s w b running phase short row
  have before : ¬ s.wordComplete w = true := fun c => by
    have := State.wordComplete_iff.mp c; omega
  have length : (w.word ++ [b]).length = w.word.length + 1 := by simp
  have whole : (s.wordTaken w b).wordComplete { w with word := w.word ++ [b] } = true ↔
      (s.info w.member).wordWidth ≤ w.word.length + 1 :=
    length ▸ State.wordComplete_iff (s := s.wordTaken w b) (w := { w with word := w.word ++ [b] })
  have taken := s.wordTaken_sameBut w b
  by_cases last : (s.info w.member).wordWidth ≤ w.word.length + 1
  · have goes : exec (.wordAddressByte b) s =
        .next ((s.wordTaken w b).bindLanding w.member (w.word ++ [b])).settle := by
      refine exec_next (execWordAddressByte b s) rfl running ?_
      simp only [phase, if_neg before]; exact if_pos (whole.mpr last)
    refine ⟨_, goes, rfl, fun k other => ?_, fun k => ?_, fun full => ⟨?_, rfl⟩, fun more => ?_,
      State.sameBut_settled (State.sameBut_trans (State.sameBut_mono taken (by simp))
        (State.sameBut_mono (State.bindLanding_sameBut _ _ _) (by simp)))⟩
    · exact State.pointer_setPointer_ne (s := s.wordTaken w b) other _
    · exact State.memberState_setPointer (s.wordTaken w b) w.member k _
    · exact State.pointer_setPointer (s := s.wordTaken w b) row _
    · omega
  · have goes : exec (.wordAddressByte b) s = .next (s.wordTaken w b).settle := by
      refine exec_next (execWordAddressByte b s) rfl running ?_
      simp only [phase, if_neg before]; exact if_neg fun c => last (whole.mp c)
    exact ⟨_, goes, rfl, fun _ _ => rfl, fun _ => rfl, fun full => absurd full.ge last,
      fun _ => ⟨rfl, rfl⟩, State.sameBut_settled (State.sameBut_mono taken (by simp))⟩

/-- Settles O23. -/
theorem dataByteStoredOrRefused : Obligations.DataByteStoredOrRefused := by
  intro s w b running phase complete
  have whole : s.wordComplete w = true := State.wordComplete_iff.mpr complete
  refine ⟨fun l clear landing row free => ?_, fun clear device region => ?_, fun marked => ?_⟩
  · have unprotected : s.protectedWrite w = false := by
      simpa [State.protectedWrite] using free
    have goes : exec (.writeDataByte b) s = .next (s.storeByte w b).settle :=
      exec_next (execWriteDataByte b s) rfl running (by simp [phase, whole, clear, unprotected])
    refine ⟨_, goes, rfl, by simp [State.storeByte, landing]; rfl, ?_, fun k other => ?_,
      State.sameBut_settled ?_⟩
    · exact State.pointer_setPointer row _
    · exact State.pointer_setPointer_ne other _
    · intro p hp; cases p <;> simp_all [State.sameAt, State.storeByte]
  · have protects : s.protectedWrite w = true := by
      simp [State.protectedWrite, device, region]
    have goes : exec (.writeDataByte b) s = .next (s.refuseProtected w).settle :=
      exec_next (execWriteDataByte b s) rfl running (by simp [phase, whole, clear, protects])
    refine ⟨_, goes, rfl, rfl, rfl, State.sameBut_settled ?_⟩
    intro p hp; cases p <;> simp_all [State.sameAt, State.refuseProtected]
  · have goes : exec (.writeDataByte b) s = .next ((s.say [.nack]).startIdle).settle :=
      exec_next (execWriteDataByte b s) rfl running (by simp [phase, whole, marked])
    refine ⟨_, goes, rfl, State.sameBut_settled ?_⟩
    intro p hp; cases p <;> simp_all [State.sameAt]

/-! ## Writes that end without a hand-over (R103, R104, R114) -/

/-- The log after a write that PFAIL may have aborted (R114): FLUSH_ABORT where a byte had been stored. -/
def State.AbortLogged (s : State) (w : OpenWrite) (log : List FaultRecord) : Prop :=
  (w.mark ≠ .pfail ∨ ∀ l, s.landing = some l → l.image.validCount = 0) ∧ log = s.log ∨
    ∃ l, w.mark = .pfail ∧ s.landing = some l ∧ l.image.validCount ≠ 0 ∧
      log =
        pushRecord
          { stamp := s.stamp, kind := .flushAbort, member := some l.member, page := some l.page,
            detail := BitVec.ofNat 8 l.image.validCount, lost := false, read := false } s.log

theorem State.endAborted_log {s : State} {w : OpenWrite} {log : List FaultRecord}
    (h : s.AbortLogged w log) : (s.endAborted w).log = log := by
  unfold State.endAborted
  rcases h with ⟨none_, rfl⟩ | ⟨l, mark, landing, stored, rfl⟩
  · split
    · rename_i l mark landing
      rw [if_pos (none_.resolve_left (fun no => no mark) l landing)]
    · rfl
  · simp [mark, landing, stored, State.stamp]

/-- A STOP that hands nothing over ends the write as a repeated START does. -/
theorem State.landWrite_of_nothing {s : State} {w : OpenWrite}
    (nothing : w.mark ≠ .clear ∨ ∀ l, s.landing = some l → l.image.validCount = 0) :
    s.landWrite w = s.endAborted w := by
  unfold State.landWrite
  split
  · rename_i l mark landing
    rw [if_pos (nothing.resolve_left (fun no => no mark) l landing)]
    simp [State.endAborted, mark]
  · rfl

/-- Settles O27. -/
theorem writeEndsWithoutHandOver : Obligations.WriteEndsWithoutHandOver := by
  intro s w log running phase logged
  have logged : s.AbortLogged w log := logged
  have ended := s.endAborted_sameBut w
  have now : (s.endAborted w).now = s.now := ended .now (by simp)
  refine ⟨?_, fun nothing => ?_⟩
  · refine ⟨(s.restartWrite w).settle, exec_next (execWriteRepeatedStart s) rfl running
      (by simp only [phase]), rfl, congrArg some now, rfl, rfl, State.endAborted_log logged,
      State.sameBut_settled (State.sameBut_trans (State.sameBut_mono ended (by simp)) ?_)⟩
    intro p hp; cases p <;> simp_all [State.sameAt, State.restartWrite]
  · refine ⟨_, exec_writeStop_of_write running phase, rfl, rfl, rfl, rfl, ?_, State.sameBut_settled ?_⟩
    · change (s.landWrite w).log = log
      rw [State.landWrite_of_nothing nothing]; exact State.endAborted_log logged
    · have same := s.stopWrite_sameBut w
      rw [State.landWrite_of_nothing nothing] at same
      exact State.sameBut_trans (State.sameBut_mono ended (by simp)) (State.sameBut_mono same (by simp))

end Sys2Proof.Machine
end

section
/-! The open read (O29, O31 to O33) and the idle limit (O28). -/

namespace Sys2Proof.Machine

/-! ## The end of an open read (R58) -/

/-- The read ceases to exist, and its waiting fetch is withdrawn (R58). -/
def State.readDropped (s : State) : State := { s.withdraw .fetch with read := none }

theorem State.closeRead_eq {s : State} {r : OpenRead} (h : s.read = some r) :
    s.closeRead = s.readDropped.raiseHeldIssue r.member := by
  simp [State.closeRead, h, State.readDropped]

/-- The issue that is due is raised, or nothing is (R33). -/
theorem State.raiseHeldIssue_cases (s : State) (m : MemberIx) :
    s.raiseHeldIssue m = s ∨ s.raiseHeldIssue m = s.raise (.issue m) := by
  unfold State.raiseHeldIssue State.raiseStep
  split
  · rename_i f slot
    split
    · rename_i due
      simp only [slot, due.1, Stage.request]
      split
      · exact .inl rfl
      · exact .inr rfl
    · exact .inl rfl
  · exact .inl rfl

theorem State.mem_raiseHeldIssue {s : State} {m : MemberIx} {f : Flight} (slot : s.slot m = some f)
    (issuing : f.stage = .issuing) (due : f.due = none) (idle : s.inProgress (.issue m) = false)
    (noRead : s.readHold m = false) : .issue m ∈ (s.raiseHeldIssue m).ds.waiting := by
  simp [State.raiseHeldIssue, State.raiseStep, slot, issuing, due, idle, noRead, Stage.request]

/-- The withdrawal of a waiting request leaves what is in progress. -/
theorem State.inProgress_withdraw (s : State) (r q : Request) :
    (s.withdraw r).inProgress q = s.inProgress q := by
  cases h : s.ds.ctl with
  | opening r' t =>
    simp only [State.inProgress, State.withdraw, h]
    split <;> split at * <;> simp_all
  | _ => simp [State.inProgress, State.withdraw, h]

theorem State.closeRead_waiting {s : State} {r : OpenRead} (h : s.read = some r) :
    .fetch ∉ s.closeRead.ds.waiting ∧
    ∀ f, s.slot r.member = some f → f.stage = .issuing → f.due = none →
      s.inProgress (.issue r.member) = false → .issue r.member ∈ s.closeRead.ds.waiting := by
  rw [State.closeRead_eq h]
  refine ⟨?_, fun f slot issuing due idle => ?_⟩
  · have gone : .fetch ∉ s.readDropped.ds.waiting := State.not_mem_withdraw s .fetch
    obtain same | raised := s.readDropped.raiseHeldIssue_cases r.member
    · rw [same]; exact gone
    · rw [raised]; simp [gone]
  · exact State.mem_raiseHeldIssue (s := s.readDropped) slot issuing due
      ((s.inProgress_withdraw .fetch _).trans idle) rfl

theorem State.closeRead_read {s : State} {r : OpenRead} (h : s.read = some r) :
    s.closeRead.read = none := by
  rw [State.closeRead_eq h]
  exact State.raiseHeldIssue_sameBut _ _ .read (by simp)

/-- Settles O31. -/
theorem readEndsWithItsRecord : Obligations.ReadEndsWithItsRecord := by
  intro s r running phase read
  have closed := s.closeRead_sameBut
  have now : s.closeRead.now = s.now := closed .now (by simp)
  obtain ⟨noFetch, raises⟩ := State.closeRead_waiting read
  have goes : ∀ how, exec (.readEnd how) s = .next (s.endRead how).settle := fun how =>
    exec_next (execReadEnd how s) rfl running (by simp only [phase])
  refine ⟨⟨_, goes .stop, State.closeRead_read read, rfl, rfl, noFetch, raises,
      State.sameBut_settled (State.sameBut_trans (State.sameBut_mono closed (by simp)) ?_)⟩,
    ⟨_, goes .repeatedStart, State.closeRead_read read, rfl, congrArg some now, noFetch, raises,
      State.sameBut_settled (State.sameBut_trans (State.sameBut_mono closed (by simp)) ?_)⟩⟩ <;>
  · intro p hp; cases p <;> simp_all [State.sameAt, State.endRead]

/-! ## The byte after an answer (R58, R64, R105) -/

/-- A read byte has been clocked out (R64): the pointer is past it, and the idle timer runs. -/
def State.byteRead (s : State) (r : OpenRead) : State :=
  ((s.setPointer r.member ((s.info r.member).nextInMember (s.pointer r.member))).say []).startIdle

theorem State.byteRead_sameBut (s : State) (r : OpenRead) :
    s.sameBut (s.byteRead r) [.members, .up] := by
  intro p hp; cases p <;> simp_all [State.sameAt, State.byteRead]

section
variable {s : State} {r : OpenRead} (running : s.inReset = false) (phase : s.up.phase = .read)
  (read : s.read = some r) (open_ : r.ended = false)
  (free : r.cond = .serving ∨ r.cond = .underrun)
include running phase read open_ free

theorem exec_readByteAnswer_ack :
    exec (.readByteAnswer true) s = .next (s.byteRead r).serveDue.settle := by
  refine exec_next (execReadByteAnswer true s) rfl running ?_
  rcases free with cond | cond <;> simp only [phase, read, cond, open_] <;> rfl

theorem exec_readByteAnswer_nack :
    exec (.readByteAnswer false) s =
      .next { s.byteRead r with read := some { r with ended := true } }.settle := by
  refine exec_next (execReadByteAnswer false s) rfl running ?_
  rcases free with cond | cond <;> simp only [phase, read, cond, open_] <;> rfl

end

/-- Settles O29. -/
theorem dueByteComesFromItsSource : Obligations.DueByteComesFromItsSource := by
  intro s r a running phase read open_ row ha
  have same := s.byteRead_sameBut r
  have pointer : (s.byteRead r).pointer r.member = a := by
    rw [ha]; exact State.pointer_setPointer row _
  have info : ∀ k, (s.byteRead r).info k = s.info k := fun k => State.info_setPointer s r.member k _
  have state : ∀ k, (s.byteRead r).memberState k = s.memberState k := fun k =>
    State.memberState_setPointer s r.member k _
  have overlay : (s.byteRead r).overlayByte r.member ((s.byteRead r).pointer r.member) =
      s.overlayByte r.member a := by
    rw [pointer, State.overlayByte_eq_overlayOf, State.overlayByte_eq_overlayOf,
      State.overlayOf_congr (s := s) (info _)]
    rfl
  have readU : (s.byteRead r).read = some r := read
  have frame : ∀ {t : State} {l k : List Part}, (s.byteRead r).sameBut t l →
      (∀ p ∈ [Part.members, .up], p ∈ k) → (∀ p ∈ l, p ∈ k) → s.sameBut t.settle k :=
    fun told before after => State.sameBut_settled
      (State.sameBut_trans (State.sameBut_mono same before) (State.sameBut_mono told after))
  have ptr : ∀ {t : State} {l : List Part}, (s.byteRead r).sameBut t l → Part.members ∉ l →
      t.settle.pointer r.member = a := fun told kept =>
    (State.pointer_congr (s := s.byteRead r) (told .members kept) r.member).trans pointer
  have up : (s.byteRead r).up = { s.up with drive := [], idle := some s.now } := rfl
  have ack : r.cond = .serving ∨ r.cond = .underrun →
      exec (.readByteAnswer true) s = .next (s.byteRead r).serveDue.settle :=
    exec_readByteAnswer_ack running phase read open_
  have partU : (s.byteRead r).os.part = s.os.part := rfl
  have nowU : (s.byteRead r).now = s.now := rfl
  have logU : (s.byteRead r).log = s.log := rfl
  have stampU : (s.byteRead r).stamp = s.stamp := rfl
  have nack := exec_readByteAnswer_nack running phase read open_
  generalize s.byteRead r = u at *
  have served : ∀ b, r.cond = .serving ∨ r.cond = .underrun → u.serveDue = u.serveByte b →
      ∃ t, exec (.readByteAnswer true) s = .next t ∧ t.pointer r.member = a ∧ t.read = some r ∧
        t.up.drive = [.byte b] ∧ t.up.idle = some s.now ∧ t.usclHeld = false ∧
        s.sameBut t [.up, .members] := fun b free serves => by
    have goes := ack free
    rw [serves] at goes
    refine ⟨_, goes, ptr (u.serveByte_sameBut b) (by simp), readU, by simp [State.serveByte, up],
      by simp [State.serveByte, nowU], ?_, frame (u.serveByte_sameBut b) (by simp) (by simp)⟩
    rcases free with cond | cond <;> simp [State.usclHeld, State.serveByte, up, phase, readU, cond]
  refine ⟨fun free => ?_, fun cond => ?_, fun cond => ⟨fun b ov => ?_, fun f b ov buffer byte => ?_,
    fun ov missing => ⟨fun part => ?_, fun part cycle => ?_, fun part free => ?_⟩⟩⟩
  · refine ⟨_, nack free, pointer, rfl, by simp [up], by simp [up],
      frame (l := [.read]) ?_ (by simp) (by simp)⟩
    intro p hp; cases p <;> simp_all only [State.sameAt, List.mem_singleton, not_true_eq_false]
  · exact served _ (.inr cond) (State.serveDue_underrun readU cond)
  · obtain ⟨t, goes, ptr, read, drive, -, free, same⟩ := served b (.inl cond)
      (State.serveDue_overlay readU (by rw [cond]; nofun) (overlay.trans ov))
    exact ⟨t, goes, ptr, read, drive, free, same⟩
  · obtain ⟨t, goes, ptr, read, drive, -, free, same⟩ := served b (.inl cond)
      (State.serveDue_buffer readU (by rw [cond]; nofun) (overlay.trans ov) buffer
        (by rw [pointer]; exact byte))
    exact ⟨t, goes, ptr, read, drive, free, same⟩
  · have goes := ack (.inl cond)
    rw [State.serveDue_haltDown readU (by rw [cond]; nofun) (overlay.trans ov)
      (by rw [pointer]; exact missing) (partU.trans part)] at goes
    refine ⟨_, goes, ptr (u.underrun_sameBut 2) (by simp), State.underrun_read readU 2, ?_, ?_, ?_, ?_,
      frame (u.underrun_sameBut 2) (by simp) (by simp)⟩
    · rw [State.settle_up, State.underrun_up readU, up]; rfl
    · rw [State.settle_up, State.underrun_up readU, nowU]
    · have phaseT : (u.underrun 2).up.phase = .read := by rw [State.underrun_up readU, up]; exact phase
      simp [State.usclHeld, phaseT, State.underrun_read readU]
    · rw [State.settle_log, State.underrun_log readU, pointer, info, stampU, logU]; rfl
  · have goes := ack (.inl cond)
    rw [State.serveDue_cycle readU (by rw [cond]; nofun) (overlay.trans ov)
      (by rw [pointer]; exact missing) (partU ▸ part) ((state _).trans cycle)] at goes
    have told : u.sameBut
        { u with
          read :=
            some { r with cond := .waiting u.now { state := .heldForCycle, addr := u.pointer r.member } }
        }.stopIdle [.read, .up] := by
      intro p hp; cases p <;> simp_all only [State.sameAt, State.stopIdle, List.mem_cons, not_or,
        not_true_eq_false, false_and, and_false]
    refine ⟨_, goes, ptr told (by simp), by simp [nowU, pointer], ?_, rfl,
      frame told (by simp) (by simp)⟩
    simp [State.usclHeld, up, phase]
  · have goes := ack (.inl cond)
    rw [State.serveDue_fetch readU (by rw [cond]; nofun) (overlay.trans ov)
      (by rw [pointer]; exact missing) (partU ▸ part) ((state _).symm ▸ free)] at goes
    have told : u.sameBut
        ({ u with
          read :=
            some { r with cond := .waiting u.now { state := .waitingGrant, addr := u.pointer r.member } }
        }.stopIdle.raise .fetch) [.read, .up, .ds] := by
      refine State.sameBut_trans ?_ (State.sameBut_mono (State.raise_sameBut _ _) (by simp))
      intro p hp; cases p <;> simp_all only [State.sameAt, State.stopIdle, List.mem_cons, not_or,
        not_true_eq_false, false_and, and_false]
    refine ⟨_, goes, ptr told (by simp), by simp [nowU, pointer], by simp, ?_, by simp,
      frame told (by simp) (by simp)⟩
    simp [State.usclHeld, up, phase]

end Sys2Proof.Machine
end

section
/-! The fetch of an open read (O32, O33) and the idle limit (O28). -/

namespace Sys2Proof.Machine

/-! ## The end of a fetch (R67 to R69) -/

section
variable {s : State} {h : Holder} {dev : DevAddr} {word bytes : List Byte}
  (running : s.inReset = false) (busy : s.ds.ctl = .busy h) (req : h.req = .fetch)
include running busy req

theorem exec_fetchEnd_completed (txn : h.txn = .read dev word bytes.length) :
    exec (.fetchEnd (.completed bytes)) s =
      .next (s.endTransaction.fetchEnded (.completed bytes)).settle :=
  exec_completedRead (execFetchEnd (.completed bytes) s) rfl running busy (by rw [req]; rfl) txn rfl

theorem exec_fetchEnd_nack (n : ReadNack) :
    exec (.fetchEnd (.nack n)) s = .next (s.endTransaction.fetchEnded (.nack n)).settle :=
  exec_nackedRead (execFetchEnd (.nack n) s) rfl running busy (by rw [req]; rfl) rfl

end

section
variable {u : State} {r : OpenRead} {t0 : Micros} {f : Fetch}

/-- The outcome of a fetch that no read waits for is dropped (R58). -/
theorem State.fetchEnded_dropped (report : ReadReport)
    (none_ : ∀ r t0 f, u.read = some r → r.cond = .waiting t0 f → f.state ≠ .inProgress) :
    u.fetchEnded report = u := by
  unfold State.fetchEnded
  split
  · rename_i r read
    split
    · rename_i t0 f cond
      exact if_neg (none_ r t0 f read cond)
    · rfl
  · rfl

variable (read : u.read = some r) (cond : r.cond = .waiting t0 f) (state : f.state = .inProgress)
include read cond state

theorem State.fetchEnded_completed (bytes : List Byte) :
    u.fetchEnded (.completed bytes) =
      ({ u.say [] with
          read := some { r with cond := .serving, buffer := some { start := f.addr, bytes := bytes } }
        }).serveByte
        (((⟨f.addr, bytes⟩ : FetchBuffer).byteAt (u.pointer r.member)).getD 0xFF) := by
  simp only [State.fetchEnded, read, cond, if_pos state]

theorem State.fetchEnded_refused :
    u.fetchEnded (.nack .deviceW) =
      { u with
        read := some { r with cond := .waiting t0 { f with state := .dueAgain (u.now + 200) } } } := by
  simp only [State.fetchEnded, read, cond, if_pos state]; rfl

theorem State.fetchEnded_failed {n : ReadNack} (other : n ≠ .deviceW) :
    u.fetchEnded (.nack n) = (u.say []).underrun 2 := by
  cases n <;> simp_all [State.fetchEnded, State.fetchFailed]

end

theorem State.endTransaction_sameBut (s : State) : s.sameBut s.endTransaction [.ds] := by
  intro p hp; cases p <;> simp_all [State.sameAt]

/-- Settles O32. -/
theorem fetchEndServesOrFails : Obligations.FetchEndServesOrFails := by
  intro s h dev word bytes running busy req txn
  have freed := s.endTransaction_sameBut
  refine ⟨fun r t0 f read cond state => ⟨fun b addr first => ?_, ?_, fun n other fresh => ?_⟩,
    fun report form none_ => ?_⟩
  · have goes := exec_fetchEnd_completed running busy req txn
    have byte : (⟨f.addr, bytes⟩ : FetchBuffer).byteAt (s.pointer r.member) = some b := by
      simp only [FetchBuffer.byteAt, addr, le_refl, if_true, Nat.sub_self]
      rw [← List.head?_eq_getElem?]; exact first
    have byte' : (⟨f.addr, bytes⟩ : FetchBuffer).byteAt (s.endTransaction.pointer r.member) =
        some b := byte
    rw [State.fetchEnded_completed (u := s.endTransaction) read cond state, byte',
      Option.getD_some] at goes
    refine ⟨_, goes, rfl, rfl, rfl, rfl, State.sameBut_settled ?_⟩
    intro p hp; cases p <;> simp_all [State.sameAt, State.serveByte]
  · have goes := exec_fetchEnd_nack running busy req .deviceW
    rw [State.fetchEnded_refused (u := s.endTransaction) read cond state] at goes
    refine ⟨_, goes, rfl, rfl, State.sameBut_settled ?_⟩
    intro p hp; cases p <;> simp_all [State.sameAt]
  · have goes := exec_fetchEnd_nack running busy req n
    have read' : (s.endTransaction.say []).read = some r := read
    rw [State.fetchEnded_failed (u := s.endTransaction) read cond state other] at goes
    refine ⟨_, goes, State.underrun_read read' 2, ?_, ?_, ?_, State.sameBut_settled ?_⟩
    · rw [State.settle_up, State.underrun_up read']; rfl
    · rw [State.settle_up, State.underrun_up read']; rfl
    · rw [State.settle_log, State.underrun_log read', if_neg (by simp [fresh])]; rfl
    · refine State.sameBut_trans (State.sameBut_mono freed (by simp)) ?_
      refine State.sameBut_trans ?_ (State.sameBut_mono (State.underrun_sameBut _ _) (by simp))
      intro p hp; cases p <;> simp_all [State.sameAt]
  · have goes : exec (.fetchEnd report) s = .next (s.endTransaction.fetchEnded report).settle := by
      rcases form with rfl | ⟨n, rfl⟩
      · exact exec_fetchEnd_completed running busy req txn
      · exact exec_fetchEnd_nack running busy req n
    rw [State.fetchEnded_dropped (u := s.endTransaction) report none_] at goes
    exact ⟨_, goes, rfl, State.sameBut_settled freed⟩

/-! ## A fetch that is due again, and the hold limit (R67, R72) -/

theorem State.setFetch_read {s : State} {r : OpenRead} {t0 : Micros} {f : Fetch}
    (read : s.read = some r) (cond : r.cond = .waiting t0 f) (st : FetchState) :
    (s.setFetch st).read = some { r with cond := .waiting t0 { f with state := st } } := by
  simp [State.setFetch, read, cond]

/-- Settles O33. -/
theorem waitingReadGoesOnOrExpires : Obligations.WaitingReadGoesOnOrExpires := by
  intro s r t0 f running read cond
  refine ⟨fun due state => ⟨fun free => ?_, fun cycle => ?_⟩, ?_⟩
  · have free' : (s.advanceTo due).memberState r.member ≠ .cycle := free
    refine ⟨_, exec_next (execFetchDueAgain s) rfl running
      (by simp only [read, cond, state]; exact if_neg free'), by simp, ?_, by simp,
      State.sameBut_settled ?_⟩
    · rw [State.settle_read, State.raise_read]; exact State.setFetch_read (s := s.advanceTo due) read cond _
    · refine State.sameBut_trans ?_ (State.sameBut_mono (State.raise_sameBut _ _) (by simp))
      intro p hp; cases p <;> simp_all [State.sameAt]
  · have cycle' : (s.advanceTo due).memberState r.member = .cycle := cycle
    refine ⟨_, exec_next (execFetchDueAgain s) rfl running
      (by simp only [read, cond, state]; exact if_pos cycle'), ?_, ?_, State.sameBut_settled ?_⟩
    · rfl
    · exact State.setFetch_read (s := s.advanceTo due) read cond _
    · intro p hp; cases p <;> simp_all [State.sameAt]
  · have goes := exec_next (u := (((s.advanceTo (t0 + s.readHoldLimit)).withdraw .fetch).say []).underrun 1)
      (execReadHoldExpiry s) rfl running (by simp only [read, cond])
    generalize hu : ((s.advanceTo (t0 + s.readHoldLimit)).withdraw .fetch).say [] = u at goes
    have read' : u.read = some r := hu ▸ read
    have same := u.underrun_sameBut 1
    have ds : u.ds = (s.withdraw .fetch).ds := by rw [← hu]; rfl
    have dsT : (u.underrun 1).ds = (s.withdraw .fetch).ds := (same .ds (by simp)).trans ds
    have now : u.now = max s.now (t0 + s.readHoldLimit) := by rw [← hu]; rfl
    have nowT : (u.underrun 1).now = max s.now (t0 + s.readHoldLimit) :=
      (same .now (by simp)).trans now
    refine ⟨_, goes, nowT, State.underrun_read read' 1, ?_, ?_, ?_, fun h busy => ?_, fun c opening => ?_,
      ?_, State.sameBut_settled ?_⟩
    · rw [State.settle_up, State.underrun_up read', ← hu]; rfl
    · rw [State.settle_up, State.underrun_up read', State.settle_now, nowT, now]
    · rw [State.settle_ds, dsT]; rfl
    · rw [State.settle_ds, dsT]; simp [State.withdraw, busy]
    · rw [State.settle_ds, dsT]; simp [State.withdraw, opening]
    · rw [State.settle_log, State.underrun_log read', ← hu]; rfl
    · refine State.sameBut_trans ?_ (State.sameBut_mono same (by simp))
      subst hu
      intro p hp; cases p <;> simp_all [State.sameAt]

/-! ## The idle limit (R113) -/

/-- The state at the idle limit, with the lines released. -/
def State.timedOut (s : State) (at_ : Micros) : State :=
  { s with now := at_, up := { s.up with drive := [] } }

theorem exec_upTimeout {s : State} {t0 at_ : Micros} (running : s.inReset = false)
    (idle : s.up.idle = some t0) (limit : at_ = max s.now (t0 + 35000)) :
    exec .upTimeout s = .next (s.timedOut at_).idleExpired.settle :=
  exec_next (execUpTimeout s) rfl running (by simp only [idle, limit]; rfl)

theorem State.timedOut_sameBut (s : State) (at_ : Micros) : s.sameBut (s.timedOut at_) [.now, .up] := by
  intro p hp; cases p <;> simp_all [State.sameAt, State.timedOut]

/-- UP_TIMEOUT, and the phase ends. -/
theorem State.timedOut_frame {s u : State} {at_ : Micros} {l k : List Part}
    (h : (s.timedOut at_).sameBut u l) (m : Option MemberIx) (page : Option Nat)
    (sub : ∀ p ∈ l, p ∈ k) (parts : .now ∈ k ∧ .up ∈ k ∧ .log ∈ k) :
    s.sameBut (u.record .upTimeout m page 0).toIdle.settle k := by
  obtain ⟨now, up, log⟩ := parts
  refine State.sameBut_settled (State.sameBut_trans (State.sameBut_mono (s.timedOut_sameBut at_) ?_)
    (State.sameBut_trans (State.sameBut_mono h sub) ?_))
  · simp [now, up]
  · intro p hp; cases p <;> simp_all [State.sameAt]

theorem State.idleRelay_pending {s : State} {r : OpenRelay} (clear : r.mark = .clear)
    (pending : r.step = .readShown ∨ r.step = .restarted true) :
    s.idleRelay r = (s.drive [.nack, .stop, .release]).releaseRelay := by
  rcases pending with step | step <;> simp [State.idleRelay, clear, step, RelayStep.slotPending]

theorem State.idleRelay_other {s : State} {r : OpenRelay}
    (other : r.mark ≠ .clear ∨ (r.step ≠ .readShown ∧ r.step ≠ .restarted true)) :
    s.idleRelay r = s.endDownstream r := by
  refine if_neg fun both => ?_
  obtain ⟨clear, pending⟩ := both
  obtain ⟨notShown, notCut⟩ := other.resolve_left fun no => no clear
  cases step : r.step <;> simp_all [RelayStep.slotPending]

theorem State.idleRelay_sameBut (s : State) (r : OpenRelay) : s.sameBut (s.idleRelay r) [.ds] := by
  unfold State.idleRelay
  split
  · intro p hp; cases p <;> simp_all [State.sameAt]
  · exact s.endDownstream_sameBut r

/-- Settles O28. -/
theorem idleLimitEndsThePhase : Obligations.IdleLimitEndsThePhase := by
  intro s t0 at_ running idle limit
  have goes := exec_upTimeout running idle limit
  refine ⟨fun phase => ?_, fun w log phase logged => ?_, fun r phase read => ?_, fun r phase => ?_⟩
  · have eq : (s.timedOut at_).idleExpired = (s.timedOut at_).toIdle := by
      simp [State.idleExpired, State.timedOut, phase]
    rw [eq] at goes
    refine ⟨_, goes, rfl, rfl, State.sameBut_settled ?_⟩
    intro p hp; cases p <;> simp_all [State.sameAt, State.timedOut]
  · have eq : (s.timedOut at_).idleExpired =
        ((((s.timedOut at_).endAborted w).dropLanding).record .upTimeout (some w.member)
          ((s.timedOut at_).timeoutPage w) 0).toIdle := by
      simp [State.idleExpired, State.timedOut, phase]
    have ended := (s.timedOut at_).endAborted_sameBut w
    have logged : (s.timedOut at_).AbortLogged w log := logged
    have now : ((s.timedOut at_).endAborted w).now = at_ := ended .now (by simp)
    have page : (s.timedOut at_).timeoutPage w =
        if (s.info w.member).wordWidth ≤ w.word.length then
          some (s.pointer w.member / (s.info w.member).pageSize) else none := by
      simp only [State.timeoutPage, State.wordComplete_iff]; rfl
    rw [eq] at goes
    refine ⟨_, goes, now, ?_, rfl, ?_, State.timedOut_frame (at_ := at_)
      (l := [.log, .landing]) ?_ _ _ (by simp) (by simp)⟩
    · simp [State.toIdle]; rfl
    · have stamp : (((s.timedOut at_).endAborted w).dropLanding).stamp = BitVec.ofNat 32 (at_ / 1000) :=
        congrArg (fun n => BitVec.ofNat 32 (n / 1000)) now
      rw [← page, ← State.endAborted_log logged, ← stamp]; rfl
    · refine State.sameBut_trans (State.sameBut_mono ended (by simp)) ?_
      intro p hp; cases p <;> simp_all [State.sameAt]
  · have eq : (s.timedOut at_).idleExpired =
        ((s.timedOut at_).closeRead.record .upTimeout (some r.member)
          (some (((s.timedOut at_).info r.member).pageOf ((s.timedOut at_).pointer r.member)))
          0).toIdle := by
      simp [State.idleExpired, State.timedOut, phase, read]
    have closed := (s.timedOut at_).closeRead_sameBut
    have now : (s.timedOut at_).closeRead.now = at_ := closed .now (by simp)
    have log : (s.timedOut at_).closeRead.log = s.log := closed .log (by simp)
    have stamp : (s.timedOut at_).closeRead.stamp = BitVec.ofNat 32 (at_ / 1000) := by
      rw [State.stamp, now]
    rw [eq] at goes
    refine ⟨_, goes, now, ?_, State.closeRead_read (s := s.timedOut at_) read, ?_,
      State.timedOut_frame closed _ _ (by simp) (by simp)⟩
    · simp [State.toIdle]; rfl
    · rw [← stamp, ← log]; rfl
  · have eq : (s.timedOut at_).idleExpired =
        (((s.timedOut at_).idleRelay r).record .upTimeout none none 0).toIdle := by
      simp [State.idleExpired, State.timedOut, phase]
    have ended := (s.timedOut at_).idleRelay_sameBut r
    have up : ((s.timedOut at_).idleRelay r).up = (s.timedOut at_).up := ended .up (by simp)
    have now : ((s.timedOut at_).idleRelay r).now = at_ := ended .now (by simp)
    have log : ((s.timedOut at_).idleRelay r).log = s.log := ended .log (by simp)
    have stamp : ((s.timedOut at_).idleRelay r).stamp = BitVec.ofNat 32 (at_ / 1000) := by
      rw [State.stamp, now]
    rw [eq] at goes
    refine ⟨_, goes, now, ?_, ?_, fun clear pending => ?_, fun clear notShown notCut => ?_,
      fun prot => ?_, fun failed => ?_, State.timedOut_frame ended _ _ (by simp) (by simp)⟩
    · simp [State.toIdle, up]; rfl
    · rw [← stamp, ← log]; rfl
    · change ((s.timedOut at_).idleRelay r).ds = _
      rw [State.idleRelay_pending clear pending]; rfl
    · change ((s.timedOut at_).idleRelay r).ds = _
      rw [State.idleRelay_other (.inr ⟨notShown, notCut⟩), State.endDownstream_ds, clear]; rfl
    · change ((s.timedOut at_).idleRelay r).ds = _
      rw [State.idleRelay_other (.inl (by rw [prot]; nofun)), State.endDownstream_ds, prot]; rfl
    · change ((s.timedOut at_).idleRelay r).ds = _
      rw [State.idleRelay_other (.inl (by rw [failed]; nofun)), State.endDownstream_ds, failed]; rfl

end Sys2Proof.Machine
end

section
/-! Relayed transactions (O34 to O36). -/

namespace Sys2Proof.Machine

/-! ## The bytes of a relay (R109, R110, R125) -/

section
variable {s : State} {r : OpenRelay} (running : s.inReset = false) (phase : s.up.phase = .relay r)
include running phase

/-- A host byte goes downstream, with USCL held for the target's answer. -/
theorem exec_relayHostByte_sent {b : Byte} (mark : r.mark = .clear) (step : r.step = .hostTurn)
    (free : s.relayProtected r = false) :
    exec (.relayHostByte b) s =
      .next ((((s.setPhase (.relay { r.advance b with step := .byteSent })).say []).stopIdle).drive
        [.byte b]).settle :=
  exec_next (execRelayHostByte b s) rfl running (by simp [phase, mark, step, free])

/-- A relay with an abort mark answers NACK to every host byte (R93, R112). -/
theorem exec_relayHostByte_refused {b : Byte} (mark : r.mark ≠ .clear)
    (step : r.step = .hostTurn ∨ r.step = .readDone) :
    exec (.relayHostByte b) s = .next ((s.say [.nack]).startIdle).settle :=
  exec_next (execRelayHostByte b s) rfl running (by rcases step with step | step <;> simp [phase, mark, step])

theorem exec_relayTargetAnswer {ack : Bool} (mark : r.mark = .clear)
    (step : r.step = .addressSent ∨ r.step = .byteSent) :
    exec (.relayTargetAnswer ack) s = .next (s.answerRelay r ack).settle :=
  exec_next (execRelayTargetAnswer ack s) rfl running (by simp [phase, mark, step])

theorem exec_relayReadByte {b : Byte} (mark : r.mark = .clear) (step : r.step = .readDue) :
    exec (.relayReadByte b) s =
      .next (((s.setPhase (.relay { r with step := .readShown })).say [.byte b]).startIdle).settle :=
  exec_next (execRelayReadByte b s) rfl running (by simp [phase, mark, step])

theorem exec_relayHostReadAnswer {ack : Bool} (step : r.step = .readShown) :
    exec (.relayHostReadAnswer ack) s = .next (s.hostAnswered r ack).settle :=
  exec_next (execRelayHostReadAnswer ack s) rfl running (by simp [phase, step])

end

section
variable (s : State) {r : OpenRelay}

/-- After any answer but an acknowledged address byte (R) the host has the turn (R125). -/
theorem State.answerRelay_hostTurn {ack : Bool}
    (h : r.step = .byteSent ∨ (r.step = .addressSent ∧ (s.up.dir ≠ some .read ∨ ack = false))) :
    s.answerRelay r ack =
      ((s.say [if ack then .ack else .nack]).setPhase (.relay { r with step := .hostTurn })).startIdle := by
  unfold State.answerRelay
  refine if_neg fun both => ?_
  obtain ⟨acked, address, reads⟩ := both
  rcases h with sent | ⟨-, writes | refused⟩
  · rw [sent] at address; cases address
  · exact writes reads
  · rw [refused] at acked; cases acked

theorem State.answerRelay_readDue (address : r.step = .addressSent) (reads : s.up.dir = some .read) :
    s.answerRelay r true =
      (((s.say [.ack]).setPhase (.relay { r with step := .readDue })).stopIdle).move :=
  if_pos ⟨rfl, address, reads⟩

end

/-- Settles O34. -/
theorem relayMirrorsEachByte : Obligations.RelayMirrorsEachByte := by
  intro s r running phase
  refine ⟨fun mark => ⟨fun b step free => ?_, fun ack step => ?_, fun step reads => ?_,
      fun b step => ?_, fun step => ⟨?_, ?_⟩⟩,
    fun mark => ⟨fun b step => ?_, fun ack => ?_, fun b => ?_, fun step => ⟨?_, ?_⟩⟩⟩
  · refine ⟨_, _, exec_relayHostByte_sent running phase mark step free, rfl, rfl, rfl, ?_, ?_, rfl,
      State.sameBut_settled ?_⟩
    · simp [State.usclHeld]
    · simp [State.dsclHeld]
    · intro p hp; cases p <;> simp_all [State.sameAt]
  · have sent : r.step = .addressSent ∨ r.step = .byteSent :=
      step.elim .inr fun both => .inl both.1
    have goes := exec_relayTargetAnswer (ack := ack) running phase mark sent
    rw [State.answerRelay_hostTurn s step] at goes
    refine ⟨_, goes, rfl, rfl, ?_, ?_, rfl, State.sameBut_settled ?_⟩
    · simp [State.usclHeld]
    · simp [State.dsclHeld, mark]
    · intro p hp; cases p <;> simp_all [State.sameAt]
  · have goes := exec_relayTargetAnswer (ack := true) running phase mark (.inl step)
    rw [State.answerRelay_readDue s step reads] at goes
    refine ⟨_, goes, rfl, rfl, ?_, ?_, rfl, State.sameBut_settled ?_⟩
    · simp [State.usclHeld]
    · simp [State.dsclHeld]
    · intro p hp; cases p <;> simp_all [State.sameAt]
  · refine ⟨_, exec_relayReadByte running phase mark step, rfl, rfl, ?_, ?_, State.sameBut_settled ?_⟩
    · simp [State.usclHeld]
    · simp [State.dsclHeld, mark]
    · intro p hp; cases p <;> simp_all [State.sameAt]
  · have eq : s.hostAnswered r true =
        (((s.say []).drive [.ack]).setPhase (.relay { r with step := .readDue })).stopIdle := by
      simp [State.hostAnswered, mark]
    have goes := exec_relayHostReadAnswer (ack := true) running phase step
    rw [eq] at goes
    refine ⟨_, goes, rfl, rfl, ?_, ?_, State.sameBut_settled ?_⟩
    · simp [State.usclHeld]
    · simp [State.dsclHeld]
    · intro p hp; cases p <;> simp_all [State.sameAt]
  · have eq : s.hostAnswered r false =
        ((((s.say []).drive [.nack]).setPhase (.relay { r with step := .readDone })).startIdle).leaveOpen := by
      simp [State.hostAnswered, mark]
    have goes := exec_relayHostReadAnswer (ack := false) running phase step
    rw [eq] at goes
    refine ⟨_, goes, rfl, rfl, ?_, ?_, State.sameBut_settled ?_⟩
    · simp [State.usclHeld]
    · simp [State.dsclHeld, mark]
    · intro p hp; cases p <;> simp_all [State.sameAt]
  · refine ⟨_, exec_relayHostByte_refused running phase mark step, rfl, State.sameBut_settled ?_⟩
    intro p hp; cases p <;> simp_all [State.sameAt]
  · exact exec_void (execRelayTargetAnswer ack s) rfl (by simp [phase, mark])
  · exact exec_void (execRelayReadByte b s) rfl (by simp [phase, mark])
  · have eq : s.hostAnswered r true = (s.say [.byte 0xFF]).startIdle := by
      simp [State.hostAnswered, mark]
    have goes := exec_relayHostReadAnswer (ack := true) running phase step
    rw [eq] at goes
    refine ⟨_, goes, rfl, ?_, State.sameBut_settled ?_⟩
    · simp [State.usclHeld, phase, step]
    · intro p hp; cases p <;> simp_all [State.sameAt]
  · have eq : s.hostAnswered r false =
        ((s.setPhase (.relay { r with step := .readDone })).say []).startIdle := by
      simp [State.hostAnswered, mark]
    have goes := exec_relayHostReadAnswer (ack := false) running phase step
    rw [eq] at goes
    refine ⟨_, goes, rfl, State.sameBut_settled ?_⟩
    intro p hp; cases p <;> simp_all [State.sameAt]

/-! ## The protection of a relayed descriptor device (R92) -/

/-- Settles O35. -/
theorem relayedDescriptorIsProtected : Obligations.RelayedDescriptorIsProtected := by
  intro s r b hi lo running phase mark step inRun writes device word region
  have value : wordValue [hi, lo] = 256 * hi.toNat + lo.toNat := by
    simp [wordValue]
  have addr : r.regionAddr = (256 * hi.toNat + lo.toNat) % 512 := by
    rw [OpenRelay.regionAddr, word, value]
  have protects : s.relayProtected r = true := by
    rcases region with ⟨first, low⟩ | ⟨later, leaves⟩
    · simp [State.relayProtected, inRun, writes, device, word, first, addr, low]
    · have notFirst : r.count ≠ 0 := by omega
      simp [State.relayProtected, inRun, writes, device, word, notFirst, addr, leaves]
  have goes : exec (.relayHostByte b) s = .next (s.refuseRelayed r).settle :=
    exec_next (execRelayHostByte b s) rfl running (by simp [phase, mark, step, protects])
  refine ⟨_, goes, rfl, rfl, rfl, ?_, State.sameBut_settled ?_⟩
  · rw [← addr]; rfl
  · intro p hp; cases p <;> simp_all [State.sameAt, State.refuseRelayed]

/-! ## The end of a relay (R111, R126) -/

theorem exec_relayStop {s : State} {r : OpenRelay} (running : s.inReset = false)
    (phase : s.up.phase = .relay r) : exec .relayStop s = .next (s.stopRelay r).settle :=
  exec_next (execRelayStop s) rfl running (by simp only [phase])

theorem exec_relayRepeatedStart {s : State} {r : OpenRelay} (running : s.inReset = false)
    (phase : s.up.phase = .relay r) (dev : DevAddr) (dir : Dir) :
    exec (.relayRepeatedStart dev dir) s = .next (s.relayAddress r dev dir).settle :=
  exec_next (execRelayRepeatedStart dev dir s) rfl running (by simp only [phase])

/-- The moves after a relay's latest: behind one that is still going on, and new otherwise (R125 to R127). -/
theorem State.follow_ds (s : State) (acts : List DownDrive) :
    (s.ds.closing = true → s.moving = true →
      (s.follow acts).ds = { s.ds with drive := s.ds.drive ++ acts, closing := false }) ∧
    (s.ds.closing = false ∨ s.moving = false →
      (s.follow acts).ds = { s.ds with drive := acts, moved := s.now, closing := false }) := by
  refine ⟨fun closing moving => ?_, fun quiet => ?_⟩
  · simp [State.follow, State.unfinishedMove, closing, moving]
  · rcases quiet with quiet | quiet <;> simp [State.follow, State.unfinishedMove, quiet]

/-- The controller with the downstream side of a relay closed by STOP. -/
def State.relayClosed (s : State) : State := (s.follow [.stop, .release]).releaseRelay

section
variable {s : State} {r : OpenRelay} {dev : DevAddr} {dir : Dir}

theorem State.relaysAgain_iff :
    s.relaysAgain dev = true ↔
      s.os.part = .passthrough ∨ (s.os.part = .run ∧ s.journaledAt dev = none) := by
  cases part : s.os.part <;> simp [State.relaysAgain, part]

theorem State.relayAddress_marked (mark : r.mark ≠ .clear) :
    s.relayAddress r dev dir =
      (((s.directed dir).setPhase (.relay { r with step := .hostTurn })).say [.nack]).startIdle :=
  if_pos mark

theorem State.relayAddress_again (mark : r.mark = .clear)
    (again : s.os.part = .passthrough ∨ (s.os.part = .run ∧ s.journaledAt dev = none)) :
    s.relayAddress r dev dir =
      ((((s.directed dir).setPhase
        (.relay
          { dev := dev, inRun := s.os.part == .run, mark := .clear, step := .addressSent, word := [],
            count := 0 })).say []).stopIdle).follow [.repeatedStart, .address dev dir] := by
  have again : (s.directed dir).relaysAgain dev = true := State.relaysAgain_iff.mpr again
  exact (if_neg (by simp [mark])).trans (if_pos again)

theorem State.relayAddress_ends (mark : r.mark = .clear)
    (other : ¬(s.os.part = .passthrough ∨ (s.os.part = .run ∧ s.journaledAt dev = none))) :
    s.relayAddress r dev dir = (s.directed dir).relayClosed.classify dev dir := by
  have other : ¬ (s.directed dir).relaysAgain dev = true := fun c =>
    other (State.relaysAgain_iff.mp c)
  refine ((if_neg (by simp [mark])).trans (if_neg other)).trans ?_
  simp only [State.endDownstream, mark]; rfl

theorem State.relayClosed_sameBut (s : State) : s.sameBut s.relayClosed [.ds] := by
  intro p hp; cases p <;> simp_all [State.sameAt, State.relayClosed]

/-- The relay's downstream side is over when the address byte is classified. -/
theorem State.relayClosed_frame {t : State} {l : List Part}
    (h : (((s.directed dir).relayClosed).directed dir).sameBut t l) :
    s.sameBut t.settle (l ++ [.up, .ds]) := by
  refine State.sameBut_settled (State.sameBut_trans ?_ (State.sameBut_mono h fun _ =>
    List.mem_append_left _))
  refine State.sameBut_trans (State.sameBut_mono (s.directed_sameBut dir) (by simp)) ?_
  exact State.sameBut_trans (State.sameBut_mono (State.relayClosed_sameBut _) (by simp))
    (State.sameBut_mono (State.directed_sameBut _ dir) (by simp))

end

theorem State.refuseAddress_sameBut (s : State) : s.sameBut s.refuseAddress [.up] := by
  intro p hp; cases p <;> simp_all [State.sameAt]

/-- A read that opens, whatever its first byte comes from (R57, R61). -/
theorem State.openRead_spec (s : State) (m : MemberIx) (part : s.os.part ≠ .haltDown) :
    (∃ o, (s.openRead m).read = some o ∧ o.member = m ∧ o.buffer = none ∧ o.recorded = false ∧
      o.ended = false) ∧
    (s.openRead m).up.phase = .read ∧ (s.openRead m).up.dir = s.up.dir ∧
    (s.openRead m).up.drive.head? = some .ack ∧
    (s.openRead m).ds.ctl = (s.withdraw (.issue m)).ds.ctl ∧
    (s.openRead m).ds.drive = s.ds.drive ∧ (s.openRead m).ds.moved = s.ds.moved ∧
    (s.openRead m).ds.closing = s.ds.closing ∧ .issue m ∉ (s.openRead m).ds.waiting := by
  have read : (s.readOpened m).read = some (.opened m) := rfl
  have gone : .issue m ∉ (s.readOpened m).ds.waiting := State.not_mem_withdraw _ _
  rw [State.openRead_eq]
  obtain ⟨b, eq⟩ | ⟨f, eq | eq⟩ := State.serveDue_cases read (by nofun) part <;> rw [eq]
  · exact ⟨⟨_, rfl, rfl, rfl, rfl, rfl⟩, rfl, rfl, rfl, rfl, rfl, rfl, rfl, gone⟩
  · exact ⟨⟨_, rfl, rfl, rfl, rfl, rfl⟩, rfl, rfl, rfl, rfl, rfl, rfl, rfl, gone⟩
  · refine ⟨⟨_, State.raise_read _ _, rfl, rfl, rfl, rfl⟩, ?_⟩
    simp only [State.raise_up, State.raise_ds_ctl, State.raise_ds_drive, State.raise_ds_moved,
      State.raise_ds_closing, State.mem_raise]
    refine ⟨rfl, rfl, rfl, rfl, rfl, rfl, rfl, ?_⟩
    rintro (fetch | old)
    · cases fetch
    · exact gone old

theorem State.openRead_sameBut (s : State) (m : MemberIx) (part : s.os.part ≠ .haltDown) :
    s.sameBut (s.openRead m) [.up, .read, .ds] := by
  have read : (s.readOpened m).read = some (.opened m) := rfl
  rw [State.openRead_eq]
  refine State.sameBut_trans (s.readOpened_sameBut m) ?_
  obtain ⟨b, eq⟩ | ⟨f, eq | eq⟩ := State.serveDue_cases read (by nofun) part <;> rw [eq]
  · exact State.sameBut_mono (State.serveByte_sameBut _ b) (by simp)
  · intro p hp; cases p <;> simp_all [State.sameAt]
  · refine State.sameBut_trans ?_ (State.sameBut_mono (State.raise_sameBut _ _) (by simp))
    intro p hp; cases p <;> simp_all [State.sameAt]

section
variable {s : State} {r : OpenRelay} {dev : DevAddr} {m : MemberIx} (running : s.inReset = false)
  (phase : s.up.phase = .relay r) (mark : r.mark = .clear) (part : s.os.part = .run)
  (member : s.journaledAt dev = some m)
include running phase mark part member

/-- A repeated START to a journaled member ends the relay's downstream side (R111). -/
theorem exec_relayRestart_journaled (dir : Dir) :
    exec (.relayRepeatedStart dev dir) s =
      .next ((((s.directed dir).relayClosed).directed dir).serveMember m dir).settle := by
  have other : ¬(s.os.part = .passthrough ∨ (s.os.part = .run ∧ s.journaledAt dev = none)) := by
    simp [part, member]
  rw [exec_relayRepeatedStart running phase dev dir, State.relayAddress_ends mark other,
    State.classify_journaled (s := (s.directed dir).relayClosed) part member]

/-- Its address byte (W) is answered by admission (R100). -/
theorem relayRestart_write :
    ∃ t, exec (.relayRepeatedStart dev .write) s = .next t ∧
      t.ds = { (s.follow [.stop, .release]).ds with ctl := .free, closing := true } ∧
      (s.memberState m = .held ∨ 32 ≤ s.journal.length →
        t.up = { phase := .notAddressed, dir := some .write, idle := none, drive := [.nack] }) ∧
      (s.memberState m ≠ .held → s.journal.length < 32 →
        t.up =
          { phase := .write { member := m, word := [], dataCount := 0, mark := .clear }
            dir := some .write, idle := some s.now, drive := [.ack] } ∧
        t.reserved = true) ∧
      s.sameBut t [.up, .ds] := by
  have run := exec_relayRestart_journaled running phase mark part member .write
  generalize hv : ((s.directed .write).relayClosed).directed .write = v at run
  have ds : v.ds = { (s.follow [.stop, .release]).ds with ctl := .free, closing := true } := by
    rw [← hv]; rfl
  have up : v.up = { s.up with dir := some .write } := by rw [← hv]; rfl
  have now : v.now = s.now := by rw [← hv]; rfl
  have state : v.memberState m = s.memberState m := by rw [← hv]; rfl
  have journal : v.journal = s.journal := by rw [← hv]; rfl
  have frame : ∀ {t : State}, v.sameBut t [.up] → s.sameBut t.settle [.up, .ds] := fun told =>
    State.sameBut_mono (State.relayClosed_frame (dir := .write) (hv ▸ told)) (by simp)
  by_cases refused : v.memberState m = .held ∨ 32 ≤ v.journal.length
  · rw [State.admission_refuses refused] at run
    rw [state, journal] at refused
    exact ⟨_, run, ds, fun _ => by simp [State.refuseAddress, up], fun free room =>
      absurd refused (not_or.mpr ⟨free, Nat.not_le.mpr room⟩), frame v.refuseAddress_sameBut⟩
  · obtain ⟨free, room⟩ := not_or.mp refused
    rw [State.admission_admits free (Nat.lt_of_not_le room)] at run
    rw [state, journal] at refused
    exact ⟨_, run, ds, fun no => absurd no refused,
      fun _ _ => ⟨by simp [State.admitted, State.startIdle, State.say, State.setPhase, up, now], rfl⟩,
      frame (v.admitted_sameBut m)⟩

/-- Its address byte (R) is answered by the busy policy (R59). -/
theorem relayRestart_read :
    ((s.slot m).isSome = true → (s.info m).hold = false →
      ∃ t, exec (.relayRepeatedStart dev .read) s = .next t ∧
        t.ds = { (s.follow [.stop, .release]).ds with ctl := .free, closing := true } ∧
        t.up = { phase := .notAddressed, dir := some .read, idle := none, drive := [.nack] } ∧
        s.sameBut t [.up, .ds]) ∧
    ((s.slot m = none ∨ (s.info m).hold = true) →
      ∃ t o, exec (.relayRepeatedStart dev .read) s = .next t ∧ t.ds.ctl = .free ∧
        t.ds.drive = (s.follow [.stop, .release]).ds.drive ∧
        t.ds.moved = (s.follow [.stop, .release]).ds.moved ∧ t.ds.closing = true ∧
        t.up.phase = .read ∧ t.up.dir = some .read ∧
        t.up.drive.head? = some .ack ∧ t.read = some o ∧ o.member = m ∧ o.buffer = none ∧
        o.recorded = false ∧ o.ended = false ∧ .issue m ∉ t.ds.waiting ∧
        s.sameBut t [.up, .read, .ds]) := by
  have run := exec_relayRestart_journaled running phase mark part member .read
  refine ⟨fun busy nack => ?_, fun open_ => ?_⟩
  · have eq := State.busyPolicy_refused (s := ((s.directed .read).relayClosed).directed .read) busy nack
    rw [State.serveMember, eq] at run
    exact ⟨_, run, rfl, rfl, State.sameBut_mono
      (State.relayClosed_frame (State.refuseAddress_sameBut _)) (by simp)⟩
  · have eq := State.busyPolicy_opens (s := ((s.directed .read).relayClosed).directed .read) open_
    rw [State.serveMember, eq] at run
    have awake : (((s.directed .read).relayClosed).directed .read).os.part ≠ .haltDown := by
      change s.os.part ≠ _; rw [part]; nofun
    obtain ⟨⟨o, read, own, buffer, recorded, ended⟩, phase, dir, first, ctl, drive, moved, closing,
      noIssue⟩ := State.openRead_spec _ m awake
    exact ⟨_, o, run, ctl, drive, moved, closing, phase, dir, first, read, own, buffer, recorded,
      ended, noIssue, State.sameBut_mono (State.relayClosed_frame (State.openRead_sameBut _ m awake))
        (by simp)⟩

end

/-- Settles O36. -/
theorem relayEndsAtStopOrRestart : Obligations.RelayEndsAtStopOrRestart := by
  intro s r running phase
  have stops := exec_relayStop running phase
  have restarts := exec_relayRepeatedStart running phase
  refine ⟨s.follow_ds, fun mark => ?_, fun mark => ?_, fun mark => ?_, fun dev dir mark again => ?_,
    fun dev m mark part member => ?_, fun dev dir mark part => ?_, fun dev dir mark => ?_, ?_,
    fun dev dir p step => ?_⟩
  · refine ⟨_, stops, rfl, rfl, ?_, State.sameBut_settled ?_⟩
    · exact (s.endDownstream_ds r).trans (by rw [mark])
    · refine State.sameBut_trans (State.sameBut_mono (s.endDownstream_sameBut r) (by simp)) ?_
      intro p hp; cases p <;> simp_all [State.sameAt, State.stopRelay]
  · refine ⟨_, stops, rfl, ?_, State.sameBut_settled ?_⟩
    · exact (s.endDownstream_ds r).trans (by rw [mark])
    · refine State.sameBut_trans (State.sameBut_mono (s.endDownstream_sameBut r) (by simp)) ?_
      intro p hp; cases p <;> simp_all [State.sameAt, State.stopRelay]
  · have eq : s.stopRelay r = s.toIdle := by simp [State.stopRelay, State.endDownstream, mark]
    rw [eq] at stops
    refine ⟨_, stops, rfl, State.sameBut_settled ?_⟩
    intro p hp; cases p <;> simp_all [State.sameAt]
  · have goes := restarts dev dir
    rw [State.relayAddress_again mark again] at goes
    refine ⟨_, _, goes, rfl, rfl, rfl, rfl, rfl, rfl, State.sameBut_settled ?_⟩
    intro p hp; cases p <;> simp_all [State.sameAt, State.directed]
  · exact ⟨relayRestart_write running phase mark part member,
      relayRestart_read running phase mark part member⟩
  · have other : ¬(s.os.part = .passthrough ∨ (s.os.part = .run ∧ s.journaledAt dev = none)) := by
      rcases part with part | part | part <;> simp [part]
    have refuses : s.os.part = .starting ∨ s.os.part = .flush ∨ s.os.part = .haltDown := by tauto
    have goes := restarts dev dir
    rw [State.relayAddress_ends mark other,
      State.classify_refused (s := (s.directed dir).relayClosed) refuses] at goes
    exact ⟨_, goes, rfl, rfl, State.sameBut_mono
      (State.relayClosed_frame (State.refuseAddress_sameBut _)) (by simp)⟩
  · have goes := restarts dev dir
    rw [State.relayAddress_marked mark] at goes
    refine ⟨_, goes, rfl, State.sameBut_settled ?_⟩
    intro p hp; cases p <;> simp_all [State.sameAt, State.directed]
  · have goes : exec .upstreamStart s = .next
        ((s.setPhase (.relay { r with step := .restarted r.step.slotPending })).startIdle).settle :=
      exec_next (execUpstreamStart s) rfl running (by simp only [phase])
    refine ⟨_, _, goes, rfl, ?_, rfl, State.sameBut_settled ?_⟩
    · cases r.step <;> simp [RelayStep.slotPending]
    · intro p hp; cases p <;> simp_all [State.sameAt]
  · rw [restarts dev dir]
    exact exec_next (execAddressByte dev dir s) rfl running (by simp only [phase, step])

end Sys2Proof.Machine
end

section
/-! The steps of a commit attempt (O39 to O44). -/

namespace Sys2Proof.Machine

/-! ## A slot's entry and its next step (R29, R30) -/

/-- The slot's working values change, and the request of its next step is raised. -/
def State.stepTo (s : State) (m : MemberIx) (K : Flight → Entry → Flight) : State :=
  (s.updateSlotEntry m fun fl e => { e with state := .inFlight (K fl e) }).raiseStep m

section
variable {s : State} {m : MemberIx} {e : Entry} {f : Flight} (slot : s.slotEntry m = some e)
  (state : e.state = .inFlight f)
include slot state

/-- A device address refused within the busy window is due again 200 µs later (R36). -/
theorem State.busyRefused_within {since : Micros} {c : Cause}
    (inTime : s.now < f.busyStart.getD since + 1000 * (s.info m).cycleMs) :
    s.busyRefused m since c =
      s.updateFlight m fun g =>
        { g with busyStart := some (f.busyStart.getD since), due := some (s.now + 200) } := by
  simp only [State.busyRefused, State.slot_eq slot state]
  exact if_pos inTime

theorem State.busyRefused_past {since : Micros} {c : Cause}
    (past : f.busyStart.getD since + 1000 * (s.info m).cycleMs ≤ s.now) :
    s.busyRefused m since c = s.failAttempt m c := by
  simp only [State.busyRefused, State.slot_eq slot state]
  exact if_neg (Nat.not_lt.mpr past)

/-- The slot's entry and its request after a change of the working values (R30, R33). -/
theorem State.stepTo_spec (K : Flight → Entry → Flight) :
    (s.stepTo m K).slotEntry m = some { e with state := .inFlight (K f e) } ∧
    s.keepsOthers (s.stepTo m K) m ∧
    ((K f e).stage ≠ .issuing ∨ s.readHold m = false →
      (K f e).stage.request m ∈ (s.stepTo m K).ds.waiting) ∧
    ((K f e).stage = .issuing → s.readHold m = true → (s.stepTo m K).ds = s.ds) := by
  have updated := State.slotEntry_updateSlotEntry
    (g := fun fl e => { e with state := .inFlight (K fl e) }) slot state (fun _ _ => rfl)
    fun fl e _ => by simp [Entry.isInFlight, Entry.flight?]
  have slot' := State.slot_eq updated rfl
  refine ⟨?_, ?_, fun may => ?_, fun issuing reads => ?_⟩
  · rw [State.stepTo, State.raiseStep_slotEntry, updated]
  · exact State.keepsOthers_congr (s.keepsOthers_updateSlotEntry m _) rfl
      (State.raiseStep_sameBut _ m .journal (by simp))
  · exact State.mem_raiseStep slot' may
  · rw [State.stepTo, State.raiseStep_held slot' issuing reads]; rfl

end

theorem State.stepTo_sameBut (s : State) (m : MemberIx) (K : Flight → Entry → Flight) :
    s.sameBut (s.stepTo m K) [.journal, .ds] :=
  State.sameBut_trans (State.sameBut_mono (s.updateSlotEntry_sameBut m _) (by simp))
    (State.sameBut_mono (State.raiseStep_sameBut _ m) (by simp))

theorem State.stepTo_ctl (s : State) (m : MemberIx) (K : Flight → Entry → Flight) :
    (s.stepTo m K).ds.ctl = s.ds.ctl := by
  rw [State.stepTo, State.raiseStep_ds_ctl]; rfl

/-- After the end of a transaction the bus is free. -/
theorem State.endTransaction_frame {s t : State} {l : List Part} (h : s.endTransaction.sameBut t l)
    (sub : .ds ∈ l) : s.sameBut t.settle l :=
  State.sameBut_settled (State.sameBut_trans
    (State.sameBut_mono s.endTransaction_sameBut (by simp [sub])) h)

/-! ## Due times and the cycle timeout (R36, R42, R43) -/

/-- Settles O41. -/
theorem dueTimeRaisesTheRequest : Obligations.DueTimeRaisesTheRequest := by
  intro s m e f due running slot state isDue
  have slotF := State.slot_eq slot state
  obtain ⟨entry, others, raised, held⟩ := State.stepTo_spec (s := s.advanceTo due) slot state
    fun g _ => { g with due := none }
  have same := (s.advanceTo due).stepTo_sameBut m fun g _ => { g with due := none }
  have frame : s.sameBut ((s.advanceTo due).stepTo m fun g _ => { g with due := none }).settle
      [.now, .journal, .ds] := by
    refine State.sameBut_settled (State.sameBut_trans ?_ (State.sameBut_mono same (by simp)))
    intro p hp; cases p <;> simp_all [State.sameAt]
  refine ⟨fun cycling => ?_, fun other => ?_⟩
  · refine ⟨_, exec_next (execPollDue m s) rfl running (by simp only [slotF, isDue]; exact if_pos cycling),
      same .now (by simp), ?_, entry, others, frame⟩
    have waits := raised (.inl (by rw [cycling]; nofun))
    rwa [cycling] at waits
  · exact ⟨_, exec_next (execBusyRepeatDue m s) rfl running
      (by simp only [slotF, isDue]; exact if_neg other), same .now (by simp), raised, held, entry,
      others, frame⟩

/-- Settles O43. -/
theorem cycleTimeoutFailsTheAttempt : Obligations.CycleTimeoutFailsTheAttempt := by
  intro s m e f t0 running slot state start
  have slotF := State.slot_eq slot state
  refine ⟨fun idle => ?_, fun busy => ?_⟩
  · refine exec_next (execWriteCycleTimeout m s) rfl running ?_
    simp only [slotF, start]
    exact if_neg (Bool.eq_false_iff.mp idle)
  · refine ⟨_, exec_next (execWriteCycleTimeout m s) rfl running
      (by simp only [slotF, start]; exact if_pos busy), rfl, State.sameBut_settled ?_⟩
    intro p hp; cases p <;> simp_all [State.sameAt]

/-! ## The end of a fill read (R39) -/

theorem byteAt_gapImage {size : Nat} {img : PageImage} {r : Run} {bytes : List Byte} {o : Nat}
    (inside : o < size) (gap : img.byteAt o = none) (from_ : r.start ≤ o)
    (before : o < r.start + r.len) :
    PageImage.byteAt (gapImage size img r bytes) o = bytes[o - r.start]? := by
  simp [PageImage.byteAt, gapImage, inside, from_, before,
    show (img[o]?).join = none from gap]

section
variable {s : State} {h : Holder} {m : MemberIx} {dev : DevAddr} {word bytes : List Byte}
  (running : s.inReset = false) (busy : s.ds.ctl = .busy h)
include running busy

theorem exec_fillReadEnd_completed (req : h.req = .fillRead m)
    (txn : h.txn = .read dev word bytes.length) :
    exec (.fillReadEnd (.completed bytes)) s = .next (s.endTransaction.fillDone m bytes).settle := by
  refine (exec_completedRead (execFillReadEnd (.completed bytes) s) rfl running busy
    (by rw [req]; rfl) txn rfl).trans ?_
  simp only [req]; rfl

theorem exec_fillReadEnd_nack (req : h.req = .fillRead m) (n : ReadNack) :
    exec (.fillReadEnd (.nack n)) s =
      .next (s.endTransaction.fillEnded m h.since (.nack n)).settle := by
  refine (exec_nackedRead (execFillReadEnd (.nack n) s) rfl running busy (by rw [req]; rfl)
    rfl).trans ?_
  simp only [req]; rfl

theorem exec_verifyReadEnd_completed (req : h.req = .verifyRead m)
    (txn : h.txn = .read dev word bytes.length) :
    exec (.verifyReadEnd (.completed bytes)) s =
      .next (s.endTransaction.verifyEnded m h.since (.completed bytes)).settle := by
  refine (exec_completedRead (execVerifyReadEnd (.completed bytes) s) rfl running busy
    (by rw [req]; rfl) txn rfl).trans ?_
  simp only [req]; rfl

theorem exec_verifyReadEnd_nack (req : h.req = .verifyRead m) (n : ReadNack) :
    exec (.verifyReadEnd (.nack n)) s =
      .next (s.endTransaction.verifyEnded m h.since (.nack n)).settle := by
  refine (exec_nackedRead (execVerifyReadEnd (.nack n) s) rfl running busy (by rw [req]; rfl)
    rfl).trans ?_
  simp only [req]; rfl

theorem exec_issueEnd (req : h.req = .issue m) (report : WriteReport) :
    exec (.issueEnd report) s = .next (s.endTransaction.issueEnded m h.since report).settle :=
  exec_next (execIssueEnd report s) rfl running (by simp only [busy, req])

theorem exec_pollEnd (req : h.req = .poll m) (ack : Bool) :
    exec (.pollEnd ack) s = .next (s.endTransaction.pollEnded m ack).settle :=
  exec_next (execPollEnd ack s) rfl running (by simp only [busy, req])

end

/-- The slot after a device address refused within its busy window (R36). -/
theorem State.busyAgain {s : State} {m : MemberIx} {e : Entry} {f : Flight}
    (slot : s.slotEntry m = some e) (state : e.state = .inFlight f) (g : Flight → Flight) :
    (s.endTransaction.updateFlight m g).settle.slotEntry m = some { e with state := .inFlight (g f) } ∧
      s.keepsOthers (s.endTransaction.updateFlight m g).settle m ∧
      (s.endTransaction.updateFlight m g).settle.ds.ctl = .free ∧
      s.sameBut (s.endTransaction.updateFlight m g).settle [.journal, .ds] :=
  ⟨State.slotEntry_updateFlight (s := s.endTransaction) slot state,
    s.endTransaction.keepsOthers_updateSlotEntry m _, rfl,
    State.endTransaction_frame (State.sameBut_mono (State.updateSlotEntry_sameBut _ m _) (by simp))
      (by simp)⟩

/-- A fill read's bytes at the gap offsets are the fill image, and the issue is due (R39). -/
def Flight.filled (f : Flight) (size : Nat) (img : PageImage) (bytes : List Byte) : Flight :=
  { f with
    stage := .issuing, fillImage := some (gapImage size img f.currentRun bytes), busyStart := none }

theorem State.fillDone_eq (s : State) (m : MemberIx) (bytes : List Byte) :
    s.fillDone m bytes = s.stepTo m fun f e => f.filled (s.info m).pageSize e.image bytes := rfl

/-- Settles O39. -/
theorem fillReadEndKeepsTheGapBytes : Obligations.FillReadEndKeepsTheGapBytes := by
  intro s h m dev word bytes e f running busy req txn slot state filling
  refine ⟨?_, fun inTime => ?_, fun past => ?_, fun n other => ?_⟩
  · have goes := exec_fillReadEnd_completed running busy req txn
    rw [State.fillDone_eq] at goes
    obtain ⟨entry, others, raised, held⟩ := State.stepTo_spec (s := s.endTransaction) slot state
      fun f e => f.filled (s.info m).pageSize e.image bytes
    exact ⟨_, _, _, _, goes, entry, rfl, rfl, fun o inside gap from_ before =>
        byteAt_gapImage inside gap from_ before, others, fun free => raised (.inr free),
      fun reads => congrArg (·.waiting) (held rfl reads), State.stepTo_ctl _ m _,
      State.endTransaction_frame (State.stepTo_sameBut _ m _) (by simp)⟩
  · have goes := exec_fillReadEnd_nack running busy req .deviceW
    have again : s.endTransaction.fillEnded m h.since (.nack .deviceW) = s.endTransaction.updateFlight m _ :=
      State.busyRefused_within (s := s.endTransaction) slot state inTime
    rw [again] at goes
    obtain ⟨entry, others, free, same⟩ := State.busyAgain slot state _
    exact ⟨_, _, goes, entry, rfl, others, free, same⟩
  · have goes := exec_fillReadEnd_nack running busy req .deviceW
    have fails : s.endTransaction.fillEnded m h.since (.nack .deviceW) = _ :=
      State.busyRefused_past (s := s.endTransaction) slot state past
    rwa [fails] at goes
  · have goes := exec_fillReadEnd_nack running busy req n
    cases n with
    | deviceW => exact absurd rfl other
    | _ => exact goes

/-! ## The end of an issue (R40) -/

theorem State.memberState_enterCycle {s : State} {m : MemberIx} (row : m.val < s.members.length)
    (k : MemberIx) :
    (s.enterCycle m).memberState k = if k = m then .cycle else s.memberState k := by
  have members : (s.enterCycle m).members = (s.setMember m .cycle).members := by
    unfold State.enterCycle; dsimp only
    split
    · split <;> rfl
    · rfl
  rw [State.memberState_congr members]
  by_cases same : k = m
  · rw [if_pos same, same, State.memberState_setMember row]
  · rw [if_neg same, State.memberState_setMember_ne same]

/-- A fetch of the member that waits is withdrawn for the cycle (R60). -/
theorem State.enterCycle_of_waiting {s : State} {m : MemberIx} {x : Fetch} (fetch : s.fetchOf m = some x)
    (waits : x.state = .waitingGrant) :
    s.enterCycle m = ((s.setMember m .cycle).withdraw .fetch).setFetch .heldForCycle := by
  have fetch' : (s.setMember m .cycle).fetchOf m = some x := fetch
  simp only [State.enterCycle, fetch', waits]

/-- Nothing else of the controller changes. -/
theorem State.enterCycle_ds_of_none {s : State} {m : MemberIx}
    (none_ : ∀ x, s.fetchOf m = some x → x.state ≠ .waitingGrant) : (s.enterCycle m).ds = s.ds := by
  unfold State.enterCycle; dsimp only
  split
  · rename_i x fetch
    split
    · rename_i waits; exact absurd waits (none_ x fetch)
    · rfl
    · rfl
  · rfl

theorem State.enterCycle_ds (s : State) (m : MemberIx) (ctl : s.ds.ctl = .free) :
    (s.enterCycle m).ds.ctl = .free ∧
    (∀ x, s.fetchOf m = some x → x.state = .waitingGrant → .fetch ∉ (s.enterCycle m).ds.waiting) ∧
    ((∀ x, s.fetchOf m = some x → x.state ≠ .waitingGrant) →
      (s.enterCycle m).ds.waiting = s.ds.waiting) := by
  refine ⟨?_, fun x fetch waits => ?_, fun none_ => congrArg (·.waiting) (State.enterCycle_ds_of_none none_)⟩
  · by_cases waits : ∃ x, s.fetchOf m = some x ∧ x.state = .waitingGrant
    · obtain ⟨x, fetch, waits⟩ := waits
      rw [State.enterCycle_of_waiting fetch waits]
      simp [State.withdraw, ctl]
    · rw [State.enterCycle_ds_of_none fun x fetch is_ => waits ⟨x, fetch, is_⟩]
      exact ctl
  · rw [State.enterCycle_of_waiting fetch waits]
    exact State.not_mem_withdraw (s.setMember m .cycle) .fetch

/-- The slot whose issue has completed (R40). -/
def Flight.cycled (f : Flight) (now : Micros) : Flight :=
  { f with
    stage := .cycling, busyStart := none, cycleStart := some now, due := some (now + pollInterval) }

theorem State.issueDone_eq (s : State) (m : MemberIx) :
    s.issueDone m = (s.updateFlight m (·.cycled s.now)).enterCycle m := rfl

theorem State.issueDone_spec (s : State) {m : MemberIx} {e : Entry} {f : Flight}
    (ctl : s.ds.ctl = .free) (row : m.val < s.members.length) (slot : s.slotEntry m = some e)
    (state : e.state = .inFlight f) :
    (s.issueDone m).settle.memberState m = .cycle ∧
    (s.issueDone m).settle.slotEntry m = some { e with state := .inFlight (f.cycled s.now) } ∧
    s.keepsOthers (s.issueDone m).settle m ∧
    (∀ k, k ≠ m → (s.issueDone m).settle.memberState k = s.memberState k) ∧
    (s.issueDone m).settle.read = s.read.map (fun o => o.onFetch m FetchState.atCycle) ∧
    (∀ x, s.fetchOf m = some x → x.state = .waitingGrant →
      .fetch ∉ (s.issueDone m).settle.ds.waiting) ∧
    ((∀ x, s.fetchOf m = some x → x.state ≠ .waitingGrant) →
      (s.issueDone m).settle.ds.waiting = s.ds.waiting) ∧
    (s.issueDone m).settle.ds.ctl = .free ∧ (s.issueDone m).settle.log = s.log ∧
    s.sameBut (s.issueDone m).settle [.journal, .members, .read, .ds] := by
  rw [State.issueDone_eq]
  have slotted := State.slotEntry_updateFlight (g := (·.cycled s.now)) slot state
  have others : s.keepsOthers (s.updateFlight m (·.cycled s.now)) m :=
    s.keepsOthers_updateSlotEntry m _
  have before : s.sameBut (s.updateFlight m (·.cycled s.now)) [.journal] :=
    s.updateSlotEntry_sameBut m _
  obtain ⟨free, withdrawn, kept⟩ := State.enterCycle_ds (s.updateFlight m (·.cycled s.now)) m ctl
  have cycles := State.enterCycle_sameBut (s.updateFlight m (·.cycled s.now)) m
  have journal : ((s.updateFlight m (·.cycled s.now)).enterCycle m).settle.journal =
      (s.updateFlight m (·.cycled s.now)).journal := cycles .journal (by simp)
  have states := State.memberState_enterCycle (s := s.updateFlight m (·.cycled s.now)) row
  refine ⟨(states m).trans (if_pos rfl), (State.slotEntry_congr journal m).trans slotted,
    State.keepsOthers_congr others rfl journal, fun k other => (states k).trans (if_neg other),
    State.enterCycle_read _ m, withdrawn, kept, free, cycles .log (by simp),
    State.sameBut_settled (State.sameBut_trans (State.sameBut_mono before (by simp))
      (State.sameBut_mono cycles (by simp)))⟩

/-- Settles O40. -/
theorem issueEndStartsTheCycle : Obligations.IssueEndStartsTheCycle := by
  intro s h m e f running busy req slot state issuing row
  have goes := exec_issueEnd running busy req
  refine ⟨?_, fun inTime => ?_, fun past => ?_, fun n other => ?_⟩
  · have occupied : (s.endTransaction.slot m).isSome = true := by
      rw [State.slot_eq (s := s.endTransaction) slot state]; rfl
    have done : s.endTransaction.issueEnded m h.since .completed = s.endTransaction.issueDone m :=
      if_pos occupied
    have goes := goes .completed
    rw [done] at goes
    obtain ⟨cycling, entry, others, states, read, withdrawn, kept, free, log, same⟩ :=
      s.endTransaction.issueDone_spec rfl row slot state
    exact ⟨_, goes, cycling, entry, others, states, read, withdrawn, kept, free, log,
      State.sameBut_trans (State.sameBut_mono s.endTransaction_sameBut (by simp)) same⟩
  · have goes := goes (.nack .deviceW)
    have again : s.endTransaction.issueEnded m h.since (.nack .deviceW) = s.endTransaction.updateFlight m _ :=
      State.busyRefused_within (s := s.endTransaction) slot state inTime
    rw [again] at goes
    exact ⟨_, goes, State.busyAgain slot state _⟩
  · have goes := goes (.nack .deviceW)
    have fails : s.endTransaction.issueEnded m h.since (.nack .deviceW) = _ :=
      State.busyRefused_past (s := s.endTransaction) slot state past
    rwa [fails] at goes
  · have goes := goes (.nack n)
    cases n with
    | deviceW => exact absurd rfl other
    | _ => exact goes

end Sys2Proof.Machine
end

section
/-! SUPPORT. The end of a poll and of a verify read (R42, R44), with the retirement of an entry (R46). -/

namespace Sys2Proof.Machine

/-! ## The retirement of a slot's entry (R46) -/

section
variable {s : State} {m : MemberIx} {e : Entry} (slot : s.slotEntry m = some e)
include slot

theorem State.retire_journal :
    (s.retire m).journal = s.journal.filter fun x => !(x.member == m && x.isInFlight) := by
  simp only [State.retire, slot]

/-- A retirement empties the slot (R46). -/
theorem State.slot_retire : (s.retire m).slot m = none := by
  have none_ : (s.retire m).slotEntry m = none := by
    rw [State.slotEntry, State.retire_journal slot, List.find?_eq_none]
    intro x inList
    simpa [not_and_or, imp_iff_not_or] using (List.mem_filter.mp inList).2
  rw [State.slot, none_, Option.bind_none]

end

theorem OpenRead.onFetch_other {o : OpenRead} {m : MemberIx} (other : o.member ≠ m)
    (g : FetchState → FetchState) : o.onFetch m g = o := by
  unfold OpenRead.onFetch; split
  · exact if_neg other
  · rfl

@[simp] theorem OpenRead.onFetch_member (o : OpenRead) (m : MemberIx) (g : FetchState → FetchState) :
    (o.onFetch m g).member = o.member := by
  unfold OpenRead.onFetch; split
  · split <;> rfl
  · rfl

@[simp] theorem OpenRead.onFetch_buffer (o : OpenRead) (m : MemberIx) (g : FetchState → FetchState) :
    (o.onFetch m g).buffer = o.buffer := by
  unfold OpenRead.onFetch; split
  · split <;> rfl
  · rfl

@[simp] theorem OpenRead.onFetch_same (o : OpenRead) (m : MemberIx) :
    o.onFetch m (fun x => x) = o := by
  unfold OpenRead.onFetch; split
  · rename_i waits; rw [← waits]; split <;> rfl
  · rfl

/-- The open read takes the bytes of the entry that retires (R70), whatever has become of its fetch. -/
theorem State.readTakes_of_retire {s u t : State} {m : MemberIx} {e : Entry}
    {g : FetchState → FetchState} (slot : u.slotEntry m = some e) (info : u.info m = s.info m)
    (before : u.read = s.read.map fun o => o.onFetch m g) (after : t.read = (u.retire m).read) :
    s.readTakes t m e g := by
  rw [State.retire_read slot, before] at after
  cases read : s.read with
  | none => simpa [State.readTakes, read] using after
  | some o =>
    simp only [read, Option.map_some, OpenRead.onFetch_member, OpenRead.onFetch_buffer] at after
    cases buffer : o.buffer with
    | none =>
      have kept : (o.onFetch m g).buffer = none := (o.onFetch_buffer m g).trans buffer
      simp only [State.readTakes, read, buffer]
      rw [after, buffer, Option.map_none]
      exact congrArg some (by split <;> simp only [← kept]; rw [← OpenRead.onFetch_member o m g])
    | some b =>
      simp only [State.readTakes, read, buffer]
      refine ⟨fun other => ?_, fun own => ⟨b.take (s.info m) e, b.take_takes _ e, ?_⟩⟩
      · rw [after, if_neg other, OpenRead.onFetch_other other]
      · rw [after, if_pos own, buffer, info, OpenRead.onFetch_member]; rfl

/-! ## The end of a poll (R42) -/

/-- The slot goes on at the run or the verify read given (R42, R44). -/
def Flight.goesTo (f : Flight) (stage : Stage) (cursor : Nat) : Flight :=
  { f with stage := stage, cursor := cursor, busyStart := none, cycleStart := none, due := none }

theorem State.nextStep_eq (s : State) (m : MemberIx) (stage : Stage) (cursor : Nat) :
    s.nextStep m stage cursor = s.stepTo m fun f _ => f.goesTo stage cursor := rfl

@[simp] theorem State.readHold_leaveCycle (s : State) (m : MemberIx) :
    (s.leaveCycle m).readHold m = s.readHold m := by
  by_cases cycle : s.memberState m = .cycle
  · simp only [State.readHold, State.leaveCycle_read cycle]
    cases s.read with
    | none => rfl
    | some o => exact congrArg (· == m) (o.onFetch_member m _)
  · rw [State.leaveCycle, if_neg cycle]

theorem State.mem_raiseStep_of_mem {s : State} {m : MemberIx} {r : Request}
    (waits : r ∈ s.ds.waiting) : r ∈ (s.raiseStep m).ds.waiting := by
  unfold State.raiseStep
  split
  · exact waits
  · split
    · exact waits
    · exact (State.mem_raise _ _ _).mpr (.inr waits)

section
variable {s : State} {m : MemberIx} {e : Entry} {f : Flight} (slot : s.slotEntry m = some e)
  (state : e.state = .inFlight f) (cycle : s.memberState m = .cycle)
include slot state cycle

/-- The cycle is over and the slot goes on (R42, R86). -/
theorem State.cycleOverNext_spec (stage : Stage) (cursor : Nat) :
    let t := ((s.leaveCycle m).nextStep m stage cursor).settle
    t.memberState m = .online ∧
      t.slotEntry m = some { e with state := .inFlight (f.goesTo stage cursor) } ∧
      s.keepsOthers t m ∧ t.read = s.read.map (fun o => o.onFetch m FetchState.afterCycle) ∧
      (∀ x, s.fetchOf m = some x → x.state = .heldForCycle → .fetch ∈ t.ds.waiting) ∧
      (stage ≠ .issuing ∨ s.readHold m = false → stage.request m ∈ t.ds.waiting) ∧
      t.log = s.log ∧ s.sameBut t [.journal, .members, .read, .ds] := by
  intro t
  have left := s.leaveCycle_sameBut m
  have slotted : (s.leaveCycle m).slotEntry m = some e :=
    (State.slotEntry_congr (left .journal (by simp)) m).trans slot
  obtain ⟨entry, others, raised, -⟩ := State.stepTo_spec slotted state fun f _ => f.goesTo stage cursor
  have stepped := State.stepTo_sameBut (s.leaveCycle m) m fun f _ => f.goesTo stage cursor
  have same : s.sameBut t [.journal, .members, .read, .ds] :=
    State.sameBut_settled (State.sameBut_trans (State.sameBut_mono left (by simp))
      (State.sameBut_mono stepped (by simp)))
  refine ⟨?_, entry, State.keepsOthers_congr others (left .journal (by simp)).symm rfl, ?_,
    fun x fetch held => ?_, fun may => raised (by rwa [State.readHold_leaveCycle]), same .log (by simp), same⟩
  · exact (State.memberState_congr (stepped .members (by simp)) m).trans (State.memberState_leaveCycle cycle)
  · exact (stepped .read (by simp)).trans (State.leaveCycle_read cycle)
  · exact State.mem_raiseStep_of_mem (s := (s.leaveCycle m).updateSlotEntry m _)
      (State.leaveCycle_raises cycle fetch held)

omit state in
/-- The cycle of the last run is over and the entry retires (R42, R46). -/
theorem State.cycleOverRetire_spec :
    let t := ((s.leaveCycle m).retire m).settle
    t.memberState m = .online ∧
      t.journal = s.journal.filter (fun x => !(x.member == m && x.isInFlight)) ∧
      t.slot m = none ∧ s.readTakes t m e FetchState.afterCycle ∧
      (∀ x, s.fetchOf m = some x → x.state = .heldForCycle → .fetch ∈ t.ds.waiting) ∧
      t.log = s.log ∧ s.sameBut t [.journal, .members, .read, .ds] := by
  intro t
  have left := s.leaveCycle_sameBut m
  have slotted : (s.leaveCycle m).slotEntry m = some e :=
    (State.slotEntry_congr (left .journal (by simp)) m).trans slot
  have retired := (s.leaveCycle m).retire_sameBut m
  have same : s.sameBut t [.journal, .members, .read, .ds] :=
    State.sameBut_settled (State.sameBut_trans (State.sameBut_mono left (by simp))
      (State.sameBut_mono retired (by simp)))
  refine ⟨?_, ?_, State.slot_retire slotted, ?_, fun x fetch held => ?_, same .log (by simp), same⟩
  · exact (State.memberState_congr (retired .members (by simp)) m).trans (State.memberState_leaveCycle cycle)
  · exact (State.retire_journal slotted).trans (by rw [left .journal (by simp)])
  · exact State.readTakes_of_retire slotted (s.info_leaveCycle m m) (State.leaveCycle_read cycle) rfl
  · show .fetch ∈ ((s.leaveCycle m).retire m).ds.waiting
    rw [State.retire_ds]
    exact State.leaveCycle_raises cycle fetch held

end

theorem State.endTransaction_sameBut_trans {s t : State} {l : List Part}
    (h : s.endTransaction.sameBut t l) (sub : .ds ∈ l) : s.sameBut t l :=
  State.sameBut_trans (State.sameBut_mono s.endTransaction_sameBut (by simp [sub])) h

/-- Settles O42. -/
theorem pollEndMovesTheEntryOn : Obligations.PollEndMovesTheEntryOn := by
  intro s h m e f t0 running busy req slot state cycling start cycle
  have goes := exec_pollEnd running busy req
  have flight : s.endTransaction.slot m = some f := State.slot_eq (s := s.endTransaction) slot state
  have acked : s.endTransaction.pollEnded m true = s.endTransaction.cycleEnded m f := by
    simp only [State.pollEnded, flight, if_true]
  refine ⟨fun more => ?_, fun last verify => ?_, fun last plain => ?_, fun inTime => ?_, fun past => ?_⟩
  · have next : s.endTransaction.cycleEnded m f = (s.endTransaction.leaveCycle m).nextStep m .issuing (f.cursor + 1) :=
      if_neg (by simp only [Flight.atLastRun, decide_eq_true_eq]; omega)
    obtain ⟨online, entry, others, read, fetch, raised, log, same⟩ :=
      State.cycleOverNext_spec (s := s.endTransaction) slot state cycle .issuing (f.cursor + 1)
    exact ⟨_, (goes true).trans (by rw [acked, next]), online, entry, others, read, fetch,
      fun free => raised (.inr free), log, State.endTransaction_sameBut_trans same (by simp)⟩
  · have verifies : ((s.endTransaction.leaveCycle m).info m).verify = true := by
      rw [State.info_leaveCycle]; exact verify
    have next : s.endTransaction.cycleEnded m f = (s.endTransaction.leaveCycle m).nextStep m .verifying 0 := by
      simp only [State.cycleEnded, Flight.atLastRun, decide_eq_true last, verifies, if_true]
    obtain ⟨online, entry, others, read, fetch, raised, log, same⟩ :=
      State.cycleOverNext_spec (s := s.endTransaction) slot state cycle .verifying 0
    exact ⟨_, (goes true).trans (by rw [acked, next]), online, entry, others, read, fetch,
      raised (.inl nofun), State.endTransaction_sameBut_trans same (by simp)⟩
  · have noVerify : ((s.endTransaction.leaveCycle m).info m).verify = false := by
      rw [State.info_leaveCycle]; exact plain
    have next : s.endTransaction.cycleEnded m f = (s.endTransaction.leaveCycle m).retire m := by
      simp only [State.cycleEnded, Flight.atLastRun, decide_eq_true last, noVerify, if_true]; rfl
    obtain ⟨online, journal, none_, takes, fetch, log, same⟩ :=
      State.cycleOverRetire_spec (s := s.endTransaction) slot cycle
    exact ⟨_, (goes true).trans (by rw [acked, next]), online, journal, none_, takes, fetch, log,
      State.endTransaction_sameBut_trans same (by simp)⟩
  · have running_ : s.endTransaction.cycleOver m f = false := by
      simp only [State.cycleOver, start, Option.getD_some]
      exact decide_eq_false (Nat.not_le.mpr inTime)
    have again : s.endTransaction.pollEnded m false =
        s.endTransaction.updateFlight m fun f => { f with due := some (s.now + 200) } := by
      simp only [State.pollEnded, flight, running_]; rfl
    obtain ⟨entry, others, free, same⟩ := State.busyAgain slot state
      fun f => { f with due := some (s.now + 200) }
    exact ⟨_, (goes false).trans (by rw [again]), entry, others, cycle, free, same⟩
  · have over_ : s.endTransaction.cycleOver m f = true := by
      simp only [State.cycleOver, start, Option.getD_some]
      exact decide_eq_true past
    have fails : s.endTransaction.pollEnded m false = s.endTransaction.failAttempt m .cycleTimeout := by
      simp only [State.pollEnded, flight, over_]; rfl
    exact (goes false).trans (by rw [fails])

/-! ## The end of a verify read (R44) -/

/-- Settles O44. -/
theorem verifyReadEndCompares : Obligations.VerifyReadEndCompares := by
  intro s h m dev word bytes e f running busy req txn slot state verifying
  have slotted : s.endTransaction.slotEntry m = some e := slot
  have flight : s.endTransaction.slot m = some f := State.slot_eq slotted state
  have completed := exec_verifyReadEnd_completed running busy req txn
  have nacked := exec_verifyReadEnd_nack running busy req
  have refused : s.endTransaction.verifyEnded m h.since (.nack .deviceW) =
      s.endTransaction.busyRefused m h.since .verifyMismatch := by
    simp only [State.verifyEnded, slotted, flight]
  refine ⟨fun matches_ more => ?_, fun matches_ last => ?_, fun differs => ?_, fun inTime => ?_,
    fun past => ?_, fun n other => ?_⟩
  · have next : s.endTransaction.verifyEnded m h.since (.completed bytes) =
        s.endTransaction.nextStep m .verifying (f.cursor + 1) := by
      simp only [State.verifyEnded, slotted, flight, Entry.verifies, beq_iff_eq, if_pos matches_]
      exact if_neg (by simp only [Flight.atLastRun, decide_eq_true_eq]; omega)
    rw [next, State.nextStep_eq] at completed
    obtain ⟨entry, others, raised, -⟩ := State.stepTo_spec (s := s.endTransaction) slot state
      fun g _ => g.goesTo .verifying (f.cursor + 1)
    refine ⟨_, completed, entry.trans ?_, others, raised (.inl nofun),
      State.endTransaction_frame (State.stepTo_sameBut _ m _) (by simp)⟩
    rw [Flight.goesTo, ← verifying]
  · have next : s.endTransaction.verifyEnded m h.since (.completed bytes) = s.endTransaction.retire m := by
      simp only [State.verifyEnded, slotted, flight, Entry.verifies, beq_iff_eq, if_pos matches_]
      exact if_pos (decide_eq_true last)
    rw [next] at completed
    have unchanged : s.endTransaction.read = s.read.map fun o => o.onFetch m fun x => x := by
      simp only [OpenRead.onFetch_same, Option.map_id']; rfl
    refine ⟨_, completed, State.retire_journal slotted, State.slot_retire slotted,
      State.readTakes_of_retire slotted rfl unchanged rfl, ?_, ?_, ?_⟩
    · exact congrArg (·.ctl) (State.retire_ds ..)
    · exact congrArg (·.waiting) (State.retire_ds ..)
    · exact State.endTransaction_frame (State.sameBut_mono (State.retire_sameBut _ m) (by simp)) (by simp)
  · have fails : s.endTransaction.verifyEnded m h.since (.completed bytes) =
        s.endTransaction.failAttempt m .verifyMismatch := by
      simp only [State.verifyEnded, slotted, flight, Entry.verifies, beq_iff_eq, if_neg differs]
    rwa [fails] at completed
  · have goes := nacked .deviceW
    rw [refused.trans (State.busyRefused_within slotted state inTime)] at goes
    obtain ⟨entry, others, free, same⟩ := State.busyAgain slot state _
    exact ⟨_, goes, entry, others, free, same⟩
  · have goes := nacked .deviceW
    rwa [refused.trans (State.busyRefused_past slotted state past)] at goes
  · have goes := nacked n
    simp only [State.verifyEnded, slotted, flight] at goes
    cases n with
    | deviceW => exact absurd rfl other
    | _ => exact goes

end Sys2Proof.Machine
end

section
/-! SUPPORT. The grant (R122, R109, R130): what the START leaves and what it changes. -/

namespace Sys2Proof.Machine

/-! ## What the grant does at the one that asked -/

theorem State.startRelay_sameBut (s : State) : s.sameBut s.startRelay [.ds, .up] := by
  unfold State.startRelay; split
  · intro p hp; cases p <;> simp_all [State.sameAt]
  · exact s.sameBut_refl _

theorem State.setJob_sameBut (s : State) (j : Job) : s.sameBut (s.setJob j) [.port] := by
  intro p hp; cases p <;> simp_all [State.sameAt]

theorem State.setFetch_sameBut (s : State) (x : FetchState) : s.sameBut (s.setFetch x) [.read] := by
  intro p hp; cases p <;> simp_all [State.sameAt]

/-- What the grant changes at the one that asked, the controller aside (R84, R109, R169, R189). -/
theorem State.grantTo_sameBut (s : State) (r : Request) : s.sameBut (s.grantTo r) r.touches := by
  have start : s.sameBut (s.grantTo (.descriptorRead .startUp)) [.ds, .os] := by
    simp only [State.grantTo]; split
    · exact State.sameBut_mono (s.setStartAccess_sameBut _) (by simp)
    · exact s.sameBut_refl _
  cases r with
  | relay => exact s.startRelay_sameBut
  | fetch => exact State.sameBut_mono (s.setFetch_sameBut _) (by simp [Request.touches])
  | probe m => exact start
  | descriptorRead who =>
    cases who with
    | startUp => exact start
    | port =>
      simp only [State.grantTo]; split
      · exact State.sameBut_mono (s.setPortAccess_sameBut _) (by simp [Request.touches])
      · exact s.sameBut_refl _
  | descriptorWrite =>
    simp only [State.grantTo]; split
    · exact State.sameBut_mono (s.setJob_sameBut _) (by simp [Request.touches])
    · exact s.sameBut_refl _
  | descriptorPoll =>
    simp only [State.grantTo]; split
    · exact State.sameBut_mono (s.setJob_sameBut _) (by simp [Request.touches])
    · exact s.sameBut_refl _
  | _ => exact s.sameBut_refl _

/-- Only a relay sends more than the START (R109). -/
theorem State.grantTo_ds_of_ne (s : State) {r : Request} (notRelay : r ≠ .relay) :
    (s.grantTo r).ds = s.ds := by
  have start : (s.grantTo (.descriptorRead .startUp)).ds = s.ds := by
    simp only [State.grantTo]; split
    · exact s.setStartAccess_sameBut _ .ds (by simp)
    · rfl
  cases r with
  | relay => exact absurd rfl notRelay
  | probe m => exact start
  | descriptorRead who =>
    cases who with
    | startUp => exact start
    | port =>
      simp only [State.grantTo]; split
      · exact s.setPortAccess_sameBut _ .ds (by simp)
      · rfl
  | descriptorWrite => simp only [State.grantTo]; split <;> rfl
  | descriptorPoll => simp only [State.grantTo]; split <;> rfl
  | _ => rfl

theorem State.startRelay_of_waiting {s : State} {dev : DevAddr} {inRun : Bool} {t0 : Micros}
    (waits : s.up.phase = .relayWait dev inRun t0) :
    s.startRelay.up.phase =
        .relay
          { dev := dev, inRun := inRun, mark := .clear, step := .addressSent, word := [], count := 0 } ∧
      s.startRelay.ds.drive = [.start, .address dev (s.up.dir.getD .write)] := by
  simp only [State.startRelay, waits]
  exact ⟨rfl, rfl⟩

theorem State.grantTo_moved {s : State} (now : s.ds.moved = s.now) (r : Request) :
    (s.grantTo r).ds.moved = s.now := by
  by_cases relay : r = .relay
  · rw [relay]
    show s.startRelay.ds.moved = s.now
    unfold State.startRelay; split
    · rfl
    · exact now
  · rw [State.grantTo_ds_of_ne s relay, now]

/-! ## The holder (R122, R129) -/

/-- The holder that the START makes. -/
def State.holderFor (s : State) (r : Request) : Holder :=
  { req := r, txn := s.transaction r, member := s.faultMember r, page := s.faultPage r, since := s.now }

/-- The holder keeps what a fault of its transaction names (R129). -/
theorem State.faultNamed_holderFor (s : State) (r : Request) : s.faultNamed r (s.holderFor r) := by
  refine ⟨fun m slot => ?_, fun o t0 f fetch read waits => ?_, fun m probe => ?_, fun other noProbe => ?_⟩
  · obtain rfl | rfl | rfl | rfl := slot <;> exact ⟨rfl, rfl⟩
  · subst fetch
    simp only [State.holderFor, State.faultMember, State.faultPage, read, waits]
    exact ⟨rfl, rfl⟩
  · subst probe; exact ⟨rfl, rfl⟩
  · cases r with
    | probe m => exact absurd rfl (noProbe m)
    | relay | descriptorRead _ | descriptorWrite | descriptorPoll => exact ⟨rfl, rfl⟩
    | fetch | poll _ | fillRead _ | verifyRead _ | issue _ =>
      obtain relay | service := other
      · cases relay
      · cases service

/-- The grant (R122): what it leaves, whoever asked. -/
theorem State.grant_spec (s : State) (r : Request) :
    ∃ h, (s.grant r).settle.ds.ctl = .busy h ∧ h.req = r ∧ h.since = s.now ∧
      h.txn = s.transaction r ∧ s.faultNamed r h ∧ (s.grant r).settle.ds.moved = s.now ∧
      (s.grant r).settle.ds.waiting = s.ds.waiting.filter (· != r) ∧
      s.sameBut (s.grant r).settle r.touches := by
  have holder : s.grant r = State.grantTo _ r := rfl
  have ds : .ds ∈ r.touches := by cases r with
    | descriptorRead who => cases who <;> simp [Request.touches]
    | _ => simp [Request.touches]
  obtain ⟨ctl, waiting, -⟩ := State.grantTo_ds _ r
  refine ⟨s.holderFor r, ctl, rfl, rfl, rfl, s.faultNamed_holderFor r, State.grantTo_moved rfl r, waiting,
    State.sameBut_settled (State.sameBut_trans ?_ (State.grantTo_sameBut _ r))⟩
  intro p hp
  cases p <;> simp_all [State.sameAt]

/-! ## The transactions granted (Table 6-3) -/

theorem State.slotTransactions {s : State} {m : MemberIx} {e : Entry} {f : Flight}
    (slot : s.slotEntry m = some e) (state : e.state = .inFlight f) :
    s.transaction (.poll m) = .addressOnly (s.info m).bus ∧
      s.transaction (.issue m) =
        .write (s.info m).bus
          ((s.info m).wordBytes (e.page * (s.info m).pageSize + f.currentRun.start))
          (runBytes e.image f f.currentRun) ∧
      s.transaction (.fillRead m) =
        .read (s.info m).bus
          ((s.info m).wordBytes (e.page * (s.info m).pageSize + f.currentRun.start))
          f.currentRun.len ∧
      s.transaction (.verifyRead m) = s.transaction (.fillRead m) := by
  have flight := State.slot_eq slot state
  refine ⟨rfl, ?_, ?_, rfl⟩
  · simp only [State.transaction, State.issueWrite, slot, flight]; rfl
  · simp only [State.transaction, State.runRead, slot, flight]; rfl

/-- Settles O46. -/
theorem grantMakesTheStart : Obligations.GrantMakesTheStart := by
  intro s r running
  refine ⟨fun free chosen => ⟨?_, ?_⟩, fun t0 opening => ⟨fun inTime => ?_, ?_⟩,
    fun m e f slot state => State.slotTransactions slot state, rfl, fun m => rfl, fun who => rfl, rfl,
    fun image k st job => ?_, fun o t0 f read waits => ?_⟩
  · refine ⟨_, exec_next (u := s.openFor r) (execArbiterChoice false s) rfl running ?_, rfl, ?_⟩
    · simp only [free, chosen, if_true]; rfl
    · refine State.sameBut_settled ?_
      intro p hp; cases p <;> simp_all [State.sameAt, State.openFor]
  · obtain ⟨h, ctl, req, since, txn, named, moved, waiting, same⟩ := s.grant_spec r
    refine ⟨_, h, exec_next (u := s.grant r) (execArbiterChoice true s) rfl running ?_, ctl, req, since, txn,
      named, moved, waiting, fun notRelay => ?_, fun dev inRun t0 relay waits => ?_, same⟩
    · simp only [free, chosen, if_true]
    · exact congrArg (·.drive) (State.grantTo_ds_of_ne _ notRelay)
    · subst relay
      exact State.startRelay_of_waiting waits
  · obtain ⟨h, ctl, req, since, txn, named, moved, waiting, same⟩ := s.grant_spec r
    refine ⟨_, h, exec_next (u := s.grant r) (execLinesHighAtCheck s) rfl running ?_, ctl, req, since, txn,
      named, moved, waiting, same⟩
    simp only [opening]
    exact if_pos inTime
  · refine ⟨_, exec_next
      (u := ((s.advanceTo (t0 + lineCheckLimit)).setCtl .clearing).drive [.release])
      (execStuckBusFound s) rfl running (by simp only [opening]), rfl, rfl, ?_⟩
    refine State.sameBut_settled ?_
    intro p hp; cases p <;> simp_all [State.sameAt]
  · simp only [State.transaction, State.blockWrite, job]
  · simp only [State.transaction, State.fetchRead, read, waits]; rfl

end Sys2Proof.Machine
end

section
/-! SUPPORT. A bus clear that succeeds (R132, R135, R168). -/

namespace Sys2Proof.Machine

/-! ## The accesses that waited for the bus clear (R84, R169, R186) -/

theorem State.setStartAccess_self {s : State} {a : Access} (access : s.startAccess = some a) :
    (s.setStartAccess a).os = s.os := by
  have kept : (s.setStartAccess a).os.start = s.os.start := by
    unfold State.startAccess at access
    split at access
    · rename_i start; injection access with same
      rw [State.setStartAccess_descriptorRead start, start, same]
    · rename_i start; injection access with same
      rw [State.setStartAccess_probing start, start, same]
    · cases access
  calc (s.setStartAccess a).os = { s.os with start := (s.setStartAccess a).os.start } := rfl
    _ = s.os := by rw [kept]

/-- An access that was set is the access. -/
theorem State.startAccess_setStartAccess {s : State} {a b : Access}
    (access : (s.setStartAccess b).startAccess = some a) : a = b := by
  cases start : s.os.start with
  | none => simp [State.startAccess, State.setStartAccess, start] at access
  | some st =>
    cases st with
    | descriptorRead c =>
      rw [State.startAccess_descriptorRead (State.setStartAccess_descriptorRead start b)] at access
      injection access with same; exact same.symm
    | probing m c =>
      rw [State.startAccess_probing (State.setStartAccess_probing start b)] at access
      injection access with same; exact same.symm
    | _ => simp [State.startAccess, State.setStartAccess, start] at access

/-- The start-up access after the bus clear. -/
def State.resumeStartAccess (s : State) : State :=
  match s.startAccess with
  | some a => s.setStartAccess (a.afterBusClear s.now)
  | none => s

/-- The descriptor access of a command after the bus clear. -/
def State.resumePortAccess (s : State) : State :=
  match s.portAccess with
  | some a => s.setPortAccess (a.afterBusClear s.now)
  | none => s

theorem State.resumeAccesses_eq (s : State) :
    s.resumeAccesses = s.resumeStartAccess.resumePortAccess := rfl

section
variable (s : State)

theorem State.resumeStartAccess_sameBut : s.sameBut s.resumeStartAccess [.os] := by
  unfold State.resumeStartAccess; split
  · exact s.setStartAccess_sameBut _
  · exact s.sameBut_refl _

theorem State.resumePortAccess_sameBut : s.sameBut s.resumePortAccess [.port] := by
  unfold State.resumePortAccess; split
  · exact s.setPortAccess_sameBut _
  · exact s.sameBut_refl _

theorem State.resumePortAccess_os : s.resumePortAccess.os = s.os := by
  unfold State.resumePortAccess; split
  · unfold State.setPortAccess; split <;> rfl
  · rfl

theorem State.resumeAccesses_os : s.resumeAccesses.os = s.resumeStartAccess.os :=
  s.resumeStartAccess.resumePortAccess_os

theorem State.resumeAccesses_sameBut : s.sameBut s.resumeAccesses [.os, .port] :=
  State.sameBut_trans (State.sameBut_mono s.resumeStartAccess_sameBut (by simp))
    (State.sameBut_mono (State.resumePortAccess_sameBut _) (by simp))

/-- The bus clear changes the part's sequence only at its access. -/
theorem State.resumeAccesses_part : s.resumeAccesses.os.part = s.os.part := by
  rw [State.resumeAccesses_os, State.resumeStartAccess]; split <;> rfl

end

section
variable {s : State}

theorem State.resumeAccesses_os_of_access {a : Access} (access : s.startAccess = some a) :
    s.resumeAccesses.os = (s.setStartAccess (a.afterBusClear s.now)).os := by
  simp only [State.resumeAccesses_os, State.resumeStartAccess, access]

/-- An access that does not wait for the bus clear stays as it is. -/
theorem State.resumeAccesses_os_of_settled
    (settled : ∀ a, s.startAccess = some a → a.asking ≠ .afterClear) : s.resumeAccesses.os = s.os := by
  cases access : s.startAccess with
  | some a =>
    have same : a.afterBusClear s.now = a := if_neg (settled a access)
    rw [State.resumeAccesses_os_of_access access, same, State.setStartAccess_self access]
  | none => simp only [State.resumeAccesses_os, State.resumeStartAccess, access]

theorem Access.afterBusClear_eq {a : Access} {w : Micros} (asking : a.asking = .afterClear)
    (window : a.window = some w) (now : Micros) :
    a.afterBusClear now =
      { asking := if now + 1000 < w + 10000 then .dueAt (now + 1000) else .noMore,
        window := some w } :=
  (if_pos asking).trans (Access.retryFrom_eq window now)

/-- The descriptor access of a command (R186, R189). -/
theorem State.resumeAccesses_port {k : Command} {a : Access} {mk : Access → Job}
    (isRead : mk = .readDescriptor ∨ ∃ image, mk = .readBack image) (cmd : s.port.cmd = some k)
    (job : k.job = mk a) :
    s.resumeAccesses.port = { s.port with cmd := some { k with job := mk (a.afterBusClear s.now) } } := by
  have port : s.resumeStartAccess.port = s.port := s.resumeStartAccess_sameBut .port (by simp)
  have now : s.resumeStartAccess.now = s.now := s.resumeStartAccess_sameBut .now (by simp)
  have progress : s.resumeStartAccess.job = some (mk a) := by
    rw [State.job, port, cmd, Option.map_some, job]
  obtain rfl | ⟨image, rfl⟩ := isRead
  · simp only [State.resumeAccesses_eq, State.resumePortAccess, State.portAccess, progress,
      State.setPortAccess, State.setJob, port, cmd, now]
    rfl
  · simp only [State.resumeAccesses_eq, State.resumePortAccess, State.portAccess, progress,
      State.setPortAccess, State.setJob, port, cmd, now]
    rfl

end

/-! ## Start-up goes on (R167, R168) -/

section
variable (s : State)

theorem State.requestDescriptor_sameBut : s.sameBut s.requestDescriptor [.os, .ds] := by
  refine State.sameBut_trans ?_ (State.sameBut_mono (State.raise_sameBut _ _) (by simp))
  intro p hp; cases p <;> simp_all [State.sameAt]

theorem State.requestDescriptor_os :
    s.requestDescriptor.os =
      { s.os with start := some (.descriptorRead { asking := .waiting, window := none }) } := by
  unfold State.requestDescriptor State.raise; split <;> rfl

theorem State.continueStart_sameBut :
    s.sameBut s.continueStart [.os, .port, .journal, .drain, .up, .ds] := by
  unfold State.continueStart; split
  · exact State.sameBut_mono (s.prepare_sameBut _) (by simp)
  · exact State.sameBut_mono s.requestDescriptor_sameBut (by simp)

theorem State.continueStart_ds :
    s.continueStart.ds.ctl = s.ds.ctl ∧ s.continueStart.ds.drive = s.ds.drive := by
  unfold State.continueStart; split
  · have same : (s.prepare .passStrap).ds = s.ds := s.prepare_sameBut _ .ds (by simp)
    rw [same]; exact ⟨rfl, rfl⟩
  · exact ⟨State.raise_ds_ctl _ _, State.raise_ds_drive _ _⟩

end

/-- Start-up at step 4 (R167), for the bus clear of start-up and the recovery of a halt left from it. -/
def State.GoesOnFrom (s t : State) : Prop :=
  (s.os.passHigh = false →
    t.os.part = .starting ∧ .descriptorRead .startUp ∈ t.ds.waiting ∧
      t.os.start = some (.descriptorRead { asking := .waiting, window := none })) ∧
  (s.os.passHigh = true →
    (s.os.msel ≠ none → t.os.part = .starting ∧ t.os.start = some (.leaving .passStrap)) ∧
    (s.os.msel = none → t.os.part = .passthrough ∧ t.os.cause = some .strap))

theorem State.goesOnFrom_continueStart {s : State} (part : s.os.part = .starting) :
    s.GoesOnFrom s.continueStart := by
  refine ⟨fun low => ?_, fun high => ⟨fun window => ?_, fun over_ => ?_⟩⟩
  · have goes : s.continueStart = s.requestDescriptor := if_neg (by simp [low])
    rw [goes, State.requestDescriptor_os]
    exact ⟨part, (State.mem_raise _ _ _).mpr (.inl rfl), rfl⟩
  · have goes : s.continueStart = s.prepare .passStrap := if_pos high
    rw [goes, State.prepare_of_window s window]
    exact ⟨part, rfl⟩
  · have goes : s.continueStart = s.prepare .passStrap := if_pos high
    rw [goes, State.prepare_of_ready s part over_]
    exact ⟨rfl, rfl⟩

/-- The access with which start-up goes on does not wait for a bus clear. -/
theorem State.continueStart_settled {s : State} (part : s.os.part = .starting) (a : Access)
    (access : s.continueStart.startAccess = some a) : a.asking ≠ .afterClear := by
  obtain ⟨low, high⟩ := State.goesOnFrom_continueStart part
  cases pass : s.os.passHigh with
  | false =>
    obtain ⟨-, -, start⟩ := low pass
    rw [State.startAccess_descriptorRead start] at access
    injection access with same; rw [← same]; nofun
  | true =>
    have goes : s.continueStart = s.prepare .passStrap := if_pos pass
    by_cases over_ : s.os.msel = none
    · simp [State.startAccess, goes, State.prepare_of_ready s part over_] at access
    · simp [State.startAccess, goes, State.prepare_of_window s over_] at access

/-! ## The recovery of a halt (R135, R168) -/

/-- The part is back in STARTING. -/
def State.backToStart (s : State) : State :=
  { s with os := { s.os with part := .starting, ret := none } }

section
variable {s : State}

theorem State.recoverTo_starting (ret : s.os.ret = some .starting) :
    s.recoverTo = s.backToStart.resumeStart := by
  simp only [State.recoverTo, ret]; rfl

theorem State.recoverTo_passthrough (ret : s.os.ret = some .passthrough) :
    s.recoverTo = { s with os := { s.os with part := .passthrough, ret := none } } := by
  simp only [State.recoverTo, ret]

/-- A halt left from RUN or FLUSH ends by the level of PFAIL. -/
theorem State.recoverTo_power (start : s.os.ret ≠ some .starting) (pass : s.os.ret ≠ some .passthrough) :
    s.recoverTo =
      if s.drain.pfailAsserted then { s with os := { s.os with part := .flush, ret := none } }
      else ({ s with os := { s.os with part := .run, ret := none } }).closeEpisode := by
  unfold State.recoverTo; split
  · contradiction
  · contradiction
  · rfl

theorem State.recoverTo_sameBut_of_ne (start : s.os.ret ≠ some .starting) :
    s.sameBut s.recoverTo [.os, .drain] := by
  by_cases pass : s.os.ret = some .passthrough
  · rw [State.recoverTo_passthrough pass]
    intro p hp; cases p <;> simp_all [State.sameAt]
  · rw [State.recoverTo_power start pass]
    split <;> (intro p hp; cases p <;> simp_all [State.sameAt])

theorem State.askStart_ds (w : Option Micros) :
    (s.askStart w).ds.ctl = s.ds.ctl ∧ (s.askStart w).ds.drive = s.ds.drive := by
  unfold State.askStart; split
  · exact ⟨State.raise_ds_ctl _ _, State.raise_ds_drive _ _⟩
  · exact ⟨rfl, rfl⟩

theorem State.resumeStart_sameBut :
    s.sameBut s.resumeStart [.os, .port, .journal, .drain, .up, .ds] := by
  unfold State.resumeStart; split
  · exact s.continueStart_sameBut
  · exact State.sameBut_mono s.leaveIfReady_sameBut (by simp)
  · exact State.sameBut_mono (s.askStart_sameBut none) (by simp)

theorem State.resumeStart_ds :
    s.resumeStart.ds.ctl = s.ds.ctl ∧ s.resumeStart.ds.drive = s.ds.drive := by
  unfold State.resumeStart; split
  · exact s.continueStart_ds
  · have same : s.leaveIfReady.ds = s.ds := s.leaveIfReady_sameBut .ds (by simp)
    rw [same]; exact ⟨rfl, rfl⟩
  · exact State.askStart_ds none

theorem State.recoverTo_sameBut :
    s.sameBut s.recoverTo [.os, .port, .journal, .drain, .up, .ds] := by
  by_cases start : s.os.ret = some .starting
  · rw [State.recoverTo_starting start]
    refine State.sameBut_trans ?_ State.resumeStart_sameBut
    intro p hp; cases p <;> simp_all [State.sameAt, State.backToStart]
  · exact State.sameBut_mono (State.recoverTo_sameBut_of_ne start) (by simp)

theorem State.recoverTo_ds :
    s.recoverTo.ds.ctl = s.ds.ctl ∧ s.recoverTo.ds.drive = s.ds.drive := by
  by_cases start : s.os.ret = some .starting
  · rw [State.recoverTo_starting start]
    exact State.resumeStart_ds
  · have same : s.recoverTo.ds = s.ds := State.recoverTo_sameBut_of_ne start .ds (by simp)
    rw [same]; exact ⟨rfl, rfl⟩

/-- The access of start-up starts again in a new window, and the accesses after the bus clear leave it so. -/
theorem State.resumed_access {r : Request} (request : s.startRequest = some r)
    (leaving : ∀ d, s.os.start ≠ some (.leaving d)) (step : s.os.start ≠ some .busClear) :
    s.resumeStart.os = (s.setStartAccess { asking := .waiting, window := none }).os ∧
      r ∈ s.resumeStart.ds.waiting := by
  have goes : s.resumeStart = (s.setStartAccess { asking := .waiting, window := none }).raise r := by
    rw [← State.askStart_eq request]
    unfold State.resumeStart; split
    · contradiction
    · rename_i d h; exact absurd h (leaving d)
    · rfl
  rw [goes]
  exact ⟨by unfold State.raise; split <;> rfl, (State.mem_raise _ _ _).mpr (.inl rfl)⟩

end

/-! ## The bus clear (R132, R135) -/

section
variable {s : State}

theorem State.clearSucceeded_haltDown (down : s.os.part = .haltDown) :
    s.clearSucceeded = (s.freeBus.record .busRecovered none none 0).recoverTo.resumeAccesses := by
  have down' : s.freeBus.os.part = .haltDown := down
  simp only [State.clearSucceeded, down']

theorem State.clearSucceeded_startUp (part : s.os.part = .starting) (step : s.os.start = some .busClear) :
    s.clearSucceeded = s.freeBus.continueStart := by
  have part' : s.freeBus.os.part = .starting := part
  simp only [State.clearSucceeded, part']
  exact if_pos step

theorem State.clearSucceeded_other (up : s.os.part ≠ .haltDown)
    (step : s.os.part = .starting → s.os.start ≠ some .busClear) :
    s.clearSucceeded = s.freeBus.resumeAccesses := by
  unfold State.clearSucceeded; dsimp only
  split
  · contradiction
  · rename_i part; exact if_neg (step part)
  · rfl

/-- Whatever the part state, the bus is free after it and the upstream side is as it was. -/
theorem State.clearSucceeded_frame :
    s.sameBut s.clearSucceeded [.os, .port, .journal, .drain, .up, .ds, .log] ∧
      s.clearSucceeded.ds.ctl = .free ∧ s.clearSucceeded.ds.drive = s.ds.drive := by
  have freed : s.sameBut s.freeBus [.os, .port, .journal, .drain, .up, .ds, .log] := by
    intro p hp; cases p <;> simp_all [State.sameAt]
  have resumed : ∀ u : State, u.resumeAccesses.ds = u.ds := fun u =>
    u.resumeAccesses_sameBut .ds (by simp)
  by_cases down : s.os.part = .haltDown
  · rw [State.clearSucceeded_haltDown down, resumed]
    refine ⟨State.sameBut_trans ?_ (State.sameBut_trans (State.sameBut_mono State.recoverTo_sameBut (by simp))
      (State.sameBut_mono (State.resumeAccesses_sameBut _) (by simp))),
      State.recoverTo_ds.1, State.recoverTo_ds.2⟩
    intro p hp; cases p <;> simp_all [State.sameAt]
  · by_cases step : s.os.part = .starting ∧ s.os.start = some .busClear
    · obtain ⟨part, step⟩ := step
      rw [State.clearSucceeded_startUp part step]
      exact ⟨State.sameBut_trans freed (State.sameBut_mono (State.continueStart_sameBut _) (by simp)),
        (State.continueStart_ds _).1, (State.continueStart_ds _).2⟩
    · rw [State.clearSucceeded_other down fun part start => step ⟨part, start⟩, resumed]
      exact ⟨State.sameBut_trans freed (State.sameBut_mono (State.resumeAccesses_sameBut _) (by simp)),
        rfl, rfl⟩

end

theorem exec_busClearEnd_freed {s : State} {n : Nat} (running : s.inReset = false)
    (clearing : s.ds.ctl = .clearing) (few : n ≤ 9) :
    exec (.busClearEnd n true) s =
      .next (s.drive (List.replicate n .pulse ++ [.stop, .release])).clearSucceeded.settle := by
  have enough : n ≤ Config.clearPulses := few
  refine exec_next (execBusClearEnd n true s) rfl running ?_
  rw [if_pos clearing, if_pos enough]; rfl


/-! ## What the bus clear makes of the part (Table 6-4) -/

/-- The states of start-up in which a bus clear goes on to step 4 (R167, R168). -/
def State.ClearsForStart (s : State) : Prop :=
  (s.os.part = .starting ∨ (s.os.part = .haltDown ∧ s.os.ret = some .starting)) ∧
    s.os.start = some .busClear

theorem State.GoesOnFrom.congr {s t u : State} (goesOn : s.GoesOnFrom t) (os : u.os = t.os)
    (ds : u.ds = t.ds) : s.GoesOnFrom u := by
  unfold State.GoesOnFrom at *
  rwa [os, ds]

/-- The bus is free again and BUS_RECOVERED is written (R135). -/
def State.recovering (s : State) : State := s.freeBus.record .busRecovered none none 0

theorem State.clearSucceeded_goesOn {s : State} (clears : s.ClearsForStart) :
    s.GoesOnFrom s.clearSucceeded.settle := by
  obtain ⟨part | ⟨down, ret⟩, step⟩ := clears
  · rw [State.clearSucceeded_startUp part step]
    exact State.goesOnFrom_continueStart (s := s.freeBus) part
  · have goes : s.recovering.recoverTo = s.recovering.backToStart.continueStart := by
      have step' : s.recovering.backToStart.os.start = some .busClear := step
      rw [State.recoverTo_starting (s := s.recovering) ret, State.resumeStart, step']
    have settled := State.continueStart_settled (s := s.recovering.backToStart) rfl
    have goesOn : s.GoesOnFrom s.recovering.recoverTo.resumeAccesses := by
      rw [goes]
      exact (State.goesOnFrom_continueStart (s := s.recovering.backToStart) rfl).congr
        (State.resumeAccesses_os_of_settled settled) (State.resumeAccesses_sameBut _ .ds (by simp))
    rw [State.clearSucceeded_haltDown down]
    exact goesOn

/-- The halt is over and start-up's access starts again (R84, R168, R169). -/
theorem State.recovered_access {s : State} {r : Request} (ret : s.os.ret = some .starting)
    (request : s.startRequest = some r) (leaving : ∀ d, s.os.start ≠ some (.leaving d))
    (step : s.os.start ≠ some .busClear) :
    s.recovering.recoverTo.resumeAccesses.os =
        (s.recovering.backToStart.setStartAccess { asking := .waiting, window := none }).os ∧
      r ∈ s.recovering.recoverTo.resumeAccesses.ds.waiting := by
  have ret' : s.recovering.os.ret = some .starting := ret
  obtain ⟨os, waits⟩ := State.resumed_access (s := s.recovering.backToStart) request leaving step
  have ds : s.recovering.recoverTo.resumeAccesses.ds = s.recovering.recoverTo.ds :=
    State.resumeAccesses_sameBut _ .ds (by simp)
  rw [ds, State.recoverTo_starting ret']
  refine ⟨?_, waits⟩
  rw [State.resumeAccesses_os_of_settled, os]
  intro a access
  have access' : (s.recovering.backToStart.setStartAccess { asking := .waiting, window := none }).startAccess =
      some a := by
    simpa only [State.startAccess, os] using access
  rw [State.startAccess_setStartAccess access']
  nofun

/-- The halt is over with the end of start-up prepared (R165, R167). -/
theorem State.recovered_leaving {s : State} {dest : Prepared} (ret : s.os.ret = some .starting)
    (start : s.os.start = some (.leaving dest)) :
    s.recovering.recoverTo.resumeAccesses.os = s.recovering.backToStart.leaveIfReady.os := by
  have goes : s.recovering.recoverTo = s.recovering.backToStart.leaveIfReady := by
    have start' : s.recovering.backToStart.os.start = some (.leaving dest) := start
    rw [State.recoverTo_starting (s := s.recovering) ret, State.resumeStart, start']
  rw [goes]
  refine State.resumeAccesses_os_of_settled fun a access => ?_
  by_cases over_ : s.os.msel = none
  · have os := State.leaveIfReady_of_ready s.recovering.backToStart (d := dest) rfl start over_
    simp [State.startAccess, os, State.depart_os] at access
  · have os := State.leaveIfReady_of_window s.recovering.backToStart over_
    have start' : s.recovering.backToStart.os.start = some (.leaving dest) := start
    simp [State.startAccess, os, start'] at access

/-- A halt that was not left from STARTING touches no access of start-up but one that waited. -/
theorem State.recovered_sameBut {s : State} (ret : s.os.ret ≠ some .starting) :
    s.sameBut s.recovering.recoverTo.resumeAccesses [.os, .ds, .log, .drain, .port] := by
  have begun : s.sameBut s.recovering [.os, .ds, .log, .drain, .port] := by
    intro p hp; cases p <;> simp_all [State.sameAt, State.recovering]
  exact State.sameBut_trans begun (State.sameBut_trans
    (State.sameBut_mono (State.recoverTo_sameBut_of_ne (s := s.recovering) ret) (by simp))
    (State.sameBut_mono (State.resumeAccesses_sameBut _) (by simp)))

theorem State.recovered_part_drain (s : State) :
    s.recovering.recoverTo.resumeAccesses.os.part = s.recovering.recoverTo.os.part ∧
      s.recovering.recoverTo.resumeAccesses.drain = s.recovering.recoverTo.drain :=
  ⟨State.resumeAccesses_part _, State.resumeAccesses_sameBut _ .drain (by simp)⟩

theorem State.drive_sameBut (s : State) (acts : List DownDrive) : s.sameBut (s.drive acts) [.ds] := by
  intro p hp; cases p <;> simp_all [State.sameAt]

/-- A halt left from RUN or FLUSH: PFAIL decides, and the flush episode closes in RUN (R147). -/
theorem State.recovered_power {s : State} (ret : s.os.ret = some .run ∨ s.os.ret = some .flush) :
    (s.drain.pfailAsserted = true →
      s.recovering.recoverTo.os.part = .flush ∧ s.recovering.recoverTo.drain = s.drain) ∧
    (s.drain.pfailAsserted = false →
      s.recovering.recoverTo.os.part = .run ∧
        s.recovering.recoverTo.drain = { s.drain with episode := none }) := by
  have goes := State.recoverTo_power (s := s.recovering)
    (show s.os.ret ≠ _ by obtain h | h := ret <;> rw [h] <;> nofun)
    (show s.os.ret ≠ _ by obtain h | h := ret <;> rw [h] <;> nofun)
  rw [goes]
  refine ⟨fun asserted => ?_, fun deasserted => ?_⟩
  · rw [if_pos (show s.recovering.drain.pfailAsserted = true from asserted)]; exact ⟨rfl, rfl⟩
  · rw [if_neg (show ¬ s.recovering.drain.pfailAsserted = true from by
      rw [show s.recovering.drain.pfailAsserted = false from deasserted]; nofun)]
    exact ⟨rfl, rfl⟩

/-- With the MSEL window over the part leaves STARTING for what is prepared (R165, R167). -/
theorem State.left_of_ready {s t : State} {dest : Prepared}
    (part : t.os.part = (s.departed dest).1) (cause : t.os.cause = (s.departed dest).2)
    (start : t.os.start = none) (left : t.os.everLeft = true)
    (running : t.inReset = false) :
    t.os.start = none ∧ t.readyHigh = true ∧
      (dest = .run → t.os.part = (if s.drain.pfailAsserted then .flush else .run)) ∧
      (dest = .passStrap → t.os.part = .passthrough ∧ t.os.cause = some .strap) ∧
      ∀ reason, dest = .passInvalid reason → t.os.part = .passthrough ∧ t.os.cause = some .invalid := by
  refine ⟨start, by simp [State.readyHigh, running, left], fun d => ?_, fun d => ?_, fun reason d => ?_⟩ <;>
    subst d
  · exact part
  · exact ⟨part, cause⟩
  · exact ⟨part, cause⟩

/-- Settles O50. -/
theorem busClearSuccessFreesTheBus : Obligations.BusClearSuccessFreesTheBus := by
  intro s₀ n running clearing few
  have goes := exec_busClearEnd_freed running clearing few
  generalize made : s₀.drive (List.replicate n .pulse ++ [.stop, .release]) = s at goes
  obtain ⟨frame, free, drive⟩ := State.clearSucceeded_frame (s := s)
  have settled := State.sameBut_settled frame
  have driven : s₀.sameBut s [.ds] := by
    subst made; exact s₀.drive_sameBut _
  have os : s.os = s₀.os := by rw [← made]; rfl
  have drain : s.drain = s₀.drain := by rw [← made]; rfl
  have port : s.port = s₀.port := by rw [← made]; rfl
  have now : s.now = s₀.now := by rw [← made]; rfl
  have waiting : s.ds.waiting = s₀.ds.waiting := by rw [← made]; rfl
  have log : s.log = s₀.log := by rw [← made]; rfl
  have stamp : s.stamp = s₀.stamp := by rw [← made]; rfl
  have drove : s.ds.drive = List.replicate n .pulse ++ [.stop, .release] := by rw [← made]; rfl
  have whole := State.sameBut_trans (State.sameBut_mono driven (by simp)) settled
  refine ⟨_, goes, free, drive.trans drove, whole .now (by simp), whole .members (by simp),
    whole .read (by simp), whole .landing (by simp), ?_⟩
  rw [← os, ← drain, ← port, ← now, ← waiting, ← log, ← stamp]
  refine ⟨fun up notStarting => ?_, fun starting notClear => ?_, fun clears step => ?_,
    fun starting => ?_, fun down => ?_⟩
  · rw [State.clearSucceeded_other up fun part => absurd part notStarting]
    have same := State.resumeAccesses_sameBut s.freeBus
    refine ⟨State.resumeAccesses_part s.freeBus, congrArg (·.waiting) (same .ds (by simp)), ?_,
      fun k a w mk isRead cmd job asking window => ?_⟩
    · refine State.sameBut_settled (State.sameBut_trans ?_ (State.sameBut_mono same (by simp)))
      refine State.sameBut_trans (State.sameBut_mono driven (by simp)) ?_
      intro p hp; cases p <;> simp_all [State.sameAt]
    · refine (State.resumeAccesses_port (s := s.freeBus) isRead cmd job).trans ?_
      rw [Access.afterBusClear_eq asking window]; rfl
  · rw [State.clearSucceeded_other (by rw [starting]; nofun) fun _ => notClear]
    have same := State.resumeAccesses_sameBut s.freeBus
    refine ⟨(State.resumeAccesses_part s.freeBus).trans starting,
      congrArg (·.waiting) (same .ds (by simp)), same .log (by simp),
      fun a w start asking window => ?_, fun m a w start asking window => ?_⟩
    · have access : s.freeBus.startAccess = some a := State.startAccess_descriptorRead start
      rw [State.settle_os_start, State.resumeAccesses_os_of_access access,
        State.setStartAccess_descriptorRead (s := s.freeBus) start, Access.afterBusClear_eq asking window]
      rfl
    · have access : s.freeBus.startAccess = some a := State.startAccess_probing start
      rw [State.settle_os_start, State.resumeAccesses_os_of_access access,
        State.setStartAccess_probing (s := s.freeBus) start, Access.afterBusClear_eq asking window]
      rfl
  · exact State.clearSucceeded_goesOn ⟨clears, step⟩
  · by_cases step : s.os.start = some .busClear
    · rw [State.clearSucceeded_startUp starting step]
      exact State.continueStart_sameBut s.freeBus .log (by simp)
    · rw [State.clearSucceeded_other (by rw [starting]; nofun) fun _ => step]
      exact State.resumeAccesses_sameBut s.freeBus .log (by simp)
  · rw [State.clearSucceeded_haltDown down]
    obtain ⟨part', drain'⟩ := s.recovered_part_drain
    have log' : s.recovering.recoverTo.resumeAccesses.log = s.recovering.log :=
      (State.resumeAccesses_sameBut _ .log (by simp)).trans (State.recoverTo_sameBut .log (by simp))
    have running' : s.recovering.recoverTo.resumeAccesses.inReset = false := by
      have kept : s.recovering.recoverTo.resumeAccesses.inReset = s₀.inReset := by
        have := State.sameBut_trans (State.sameBut_mono driven (by simp)) frame .inReset (by simp)
        rwa [State.clearSucceeded_haltDown down] at this
      rw [kept, running]
    refine ⟨log', fun ret => ?_, fun ret => ?_, fun ret => ?_,
      fun ret => ⟨fun a start => ?_, fun m a start => ?_, fun dest start => ⟨fun window => ?_, fun over_ => ?_⟩⟩⟩
    · have goes := State.recoverTo_passthrough (s := s.recovering) ret
      exact ⟨part'.trans (by rw [goes]), drain'.trans (by rw [goes]; rfl)⟩
    · obtain ⟨flush, run⟩ := State.recovered_power ret
      refine ⟨fun asserted => ?_, fun deasserted => ?_⟩
      · exact ⟨part'.trans (flush asserted).1, drain'.trans (flush asserted).2⟩
      · exact ⟨part'.trans (run deasserted).1, drain'.trans (run deasserted).2⟩
    · exact State.sameBut_settled (State.sameBut_trans (State.sameBut_mono driven (by simp))
        (State.recovered_sameBut ret))
    · obtain ⟨os', waits⟩ := State.recovered_access ret (State.startRequest_descriptorRead start)
        (by simp [start]) (by simp [start])
      refine ⟨(congrArg (·.part) os').trans rfl, waits, (congrArg (·.start) os').trans ?_⟩
      exact State.setStartAccess_descriptorRead (s := s.recovering.backToStart) start _
    · obtain ⟨os', waits⟩ := State.recovered_access ret (State.startRequest_probing start)
        (by simp [start]) (by simp [start])
      refine ⟨(congrArg (·.part) os').trans rfl, waits, (congrArg (·.start) os').trans ?_⟩
      exact State.setStartAccess_probing (s := s.recovering.backToStart) start _
    · have os' := State.recovered_leaving ret start
      rw [State.leaveIfReady_of_window s.recovering.backToStart window] at os'
      exact ⟨congrArg (·.part) os', congrArg (·.start) os'⟩
    · have os' := State.recovered_leaving ret start
      rw [State.leaveIfReady_of_ready s.recovering.backToStart rfl start over_, State.depart_os] at os'
      exact State.left_of_ready (congrArg (·.part) os') (congrArg (·.cause) os') (congrArg (·.start) os')
        (congrArg (·.everLeft) os') running'

end Sys2Proof.Machine
end

section
/-! SUPPORT. Drain requests, the power-fail flush and DOZE (Chapter 7, R174). -/

namespace Sys2Proof.Machine

/-! ## Drain requests (R138, R139) -/

theorem State.markAll_sameBut (s : State) : s.sameBut s.markAll [.journal] := by
  intro p hp; cases p <;> simp_all [State.sameAt]

/-- After a marking DRAINED is high exactly where the list is empty (R150). -/
theorem State.drainedHigh_of_marked {s t : State}
    (marked : t.journal = s.journal.map fun e => { e with marked := true }) :
    t.drainedHigh = true ↔ s.journal = [] := by
  rw [State.drainedHigh, marked]
  cases s.journal with
  | nil => simp
  | cons e l => simp

theorem State.drainRequest_of_marks {s : State}
    (part : s.os.part = .run ∨ s.os.part = .flush ∨ s.os.part = .haltDown) :
    s.drainRequest = s.markAll ∧ s.drainCount = s.journal.length := by
  obtain h | h | h := part <;> simp only [State.drainRequest, State.drainCount, h, and_self]

theorem State.drainRequest_of_none {s : State}
    (part : s.os.part = .starting ∨ s.os.part = .passthrough) :
    s.drainRequest = s ∧ s.drainCount = 0 := by
  obtain h | h := part <;> simp only [State.drainRequest, State.drainCount, h, and_self]

theorem State.setDrainLevel_sameBut (s : State) (high : Bool) :
    s.sameBut (s.setDrainLevel high) [.drain] := by
  intro p hp; cases p <;> simp_all [State.sameAt, State.setDrainLevel]

/-- A high sample after a low one is a drain request (R137, R138). -/
theorem exec_drainEdge {s : State} {low fell : Bool} (running : s.inReset = false)
    (edge : s.drain.drainHigh = false ∨ low = true) :
    exec (.drainRisingEdge low fell) s = .next (s.setDrainLevel (!fell)).drainRequest.settle := by
  refine exec_next (execDrainRisingEdge s low fell) rfl running (if_neg ?_)
  rintro ⟨high, notLow⟩
  obtain h | h := edge
  · rw [h] at high; cases high
  · rw [h] at notLow; cases notLow

/-- A line that has stayed high makes no request (R137). -/
theorem exec_drainStays {s : State} {fell : Bool} (running : s.inReset = false)
    (high : s.drain.drainHigh = true) :
    exec (.drainRisingEdge false fell) s = .next (s.setDrainLevel (!fell)).settle :=
  exec_next (execDrainRisingEdge s false fell) rfl running (if_pos ⟨high, rfl⟩)

theorem State.ReadyFor.exec_drain {s : State} (ready : s.ReadyFor .drain) (seq : Byte) :
    exec (.drain seq []) s =
      .next ((s.setRx .hunt).drainRequest.answer 0x11 seq .ok
        [BitVec.ofNat 8 (s.setRx .hunt).drainCount]).settle :=
  ready.exec_eq seq (payload := []) rfl

/-- Settles O52. -/
theorem drainRequestsMarkEveryEntry : Obligations.DrainRequestsMarkEveryEntry := by
  intro s seq low fell running
  have level := s.setDrainLevel_sameBut (!fell)
  refine ⟨fun edge => ?_, fun high stays => ?_, fun ready => ⟨fun part => ?_, fun part => ?_⟩⟩
  · rw [exec_drainEdge running edge]
    refine ⟨fun part => ?_, fun part => ?_, fun doze => ?_⟩
    · rw [(State.drainRequest_of_marks (s := s.setDrainLevel (!fell)) part).1]
      exact ⟨_, rfl, rfl, rfl, State.drainedHigh_of_marked rfl, State.sameBut_settled
        (State.sameBut_trans (State.sameBut_mono level (by simp))
          (State.sameBut_mono (State.markAll_sameBut _) (by simp)))⟩
    · rw [(State.drainRequest_of_none (s := s.setDrainLevel (!fell)) part).1]
      exact ⟨_, rfl, rfl, State.sameBut_settled level⟩
    · have wakes : (s.setDrainLevel (!fell)).drainRequest = (s.setDrainLevel (!fell)).wake := by
        have doze' : (s.setDrainLevel (!fell)).os.part = .doze := doze
        simp only [State.drainRequest, doze']
      have woken := State.wake_sameBut (s.setDrainLevel (!fell))
      rw [wakes]
      exact ⟨_, rfl, (State.wake_part _).1.trans (if_pos doze), woken .drain (by simp),
        State.sameBut_settled (State.sameBut_trans (State.sameBut_mono level (by simp))
          (State.sameBut_mono woken (by simp)))⟩
  · subst stays
    exact ⟨_, exec_drainStays running high, rfl, State.sameBut_settled level⟩
  · obtain ⟨marks, count⟩ := State.drainRequest_of_marks (s := s.setRx .hunt) part
    rw [ready.exec_drain seq, marks, count]
    have same := State.answer_frame (s := s) (State.markAll_sameBut (s.setRx .hunt)) 0x11 seq .ok
      [BitVec.ofNat 8 s.journal.length]
    exact ⟨_, rfl, rfl, State.answer_port_hunt rfl _ _ _ _, State.drainedHigh_of_marked rfl, same⟩
  · obtain ⟨none_, count⟩ := State.drainRequest_of_none (s := s.setRx .hunt) part
    rw [ready.exec_drain seq, none_, count]
    exact ⟨_, rfl, State.answer_port_hunt rfl _ _ _ _,
      State.answer_frame (State.sameBut_refl _ []) _ _ _ _⟩

/-! ## PFAIL (R141 to R149) -/

/-- An open write takes the mark PFAIL where it carries none (R114). -/
theorem State.abortWrite_up {s : State} {w : OpenWrite} (write : s.up.phase = .write w) :
    s.abortWrite.up =
      { s.up with phase := .write { w with mark := if w.mark = .clear then .pfail else w.mark } } := by
  simp only [State.abortWrite, write]
  by_cases clear : w.mark = .clear
  · rw [if_pos clear, if_pos clear]; rfl
  · rw [if_neg clear, if_neg clear, ← write]

theorem State.abortWrite_of_none {s : State} (none_ : ∀ w, s.up.phase ≠ .write w) : s.abortWrite = s := by
  unfold State.abortWrite; split
  · rename_i w h; exact absurd h (none_ w)
  · rfl

theorem State.setPfail_sameBut (s : State) (asserted : Bool) : s.sameBut (s.setPfail asserted) [.drain] := by
  intro p hp; cases p <;> simp_all [State.sameAt, State.setPfail]

theorem exec_pfailAssertion {s : State} (running : s.inReset = false)
    (deasserted : s.drain.pfailAsserted = false) :
    exec .pfailAssertion s = .next (s.setPfail true).pfailTaken.settle :=
  exec_next (execPfailAssertion s) rfl running (if_neg (by rw [deasserted]; nofun))

/-- The state before a flush that PFAIL begins: awake and otherwise as it stood (R142, R175). -/
def State.atPfail (s : State) : State := (s.setPfail true).wake

theorem State.atPfail_sameBut (s : State) : s.sameBut s.atPfail [.os, .drain] :=
  State.sameBut_trans (State.sameBut_mono (s.setPfail_sameBut true) (by simp))
    (State.sameBut_mono (State.wake_sameBut _) (by simp))

theorem State.pfailTaken_of_run {s : State}
    (part : s.os.part = .run ∨ (s.os.part = .doze ∧ s.os.ret = some .run)) :
    (s.setPfail true).pfailTaken = s.atPfail.enterFlush := by
  obtain run | ⟨doze, ret⟩ := part
  · have run' : (s.setPfail true).os.part = .run := run
    have awake : s.atPfail = s.setPfail true := State.wake_of_awake (by rw [run']; nofun)
    simp only [State.pfailTaken, run', awake]
  · have doze' : (s.setPfail true).os.part = .doze := doze
    have ret' : (s.setPfail true).os.ret ≠ some .passthrough := by
      show s.os.ret ≠ _
      rw [ret]; nofun
    simp only [State.pfailTaken, doze', if_neg ret']; rfl

/-- PFAIL in a halt left from RUN or FLUSH (R148). -/
theorem State.pfailTaken_of_halt {s : State} (part : s.os.part = .haltDown)
    (ret : s.os.ret = some .run ∨ s.os.ret = some .flush) :
    (s.setPfail true).pfailTaken = (s.setPfail true).markAll.ensureEpisode.abortWrite := by
  have part' : (s.setPfail true).os.part = .haltDown := part
  simp only [State.pfailTaken, part']
  exact if_pos ret

/-- Elsewhere only the level is kept (R149). -/
theorem State.pfailTaken_of_other {s : State}
    (part : s.os.part = .starting ∨ s.os.part = .passthrough ∨
      (s.os.part = .haltDown ∧ s.os.ret ≠ some .run ∧ s.os.ret ≠ some .flush) ∨
      (s.os.part = .doze ∧ s.os.ret = some .passthrough)) :
    s.pfailTaken = s := by
  obtain h | h | ⟨h, notRun, notFlush⟩ | ⟨h, pass⟩ := part <;> simp only [State.pfailTaken, h]
  · exact if_neg (not_or.mpr ⟨notRun, notFlush⟩)
  · exact if_pos pass

theorem State.ensureEpisode_drain (s : State) :
    s.ensureEpisode.drain =
      { s.drain with episode := some (s.drain.episode.getD { budget := .running, openedAt := s.now }) } := by
  unfold State.ensureEpisode
  split
  · rename_i ep h; rw [h, Option.getD_some, ← h]
  · rename_i h; rw [h]; rfl

theorem State.ensureEpisode_sameBut (s : State) : s.sameBut s.ensureEpisode [.drain] := by
  intro p hp; unfold State.ensureEpisode; split <;> cases p <;> simp_all [State.sameAt]

/-- The end of a flush by PFAIL (R147). -/
theorem exec_pfailDeassertion_flush {s : State} (running : s.inReset = false)
    (asserted : s.drain.pfailAsserted = true) (flush : s.os.part = .flush) :
    exec .pfailDeassertion s = .next ((s.setPfail false).setPart .run).closeEpisode.settle := by
  refine exec_next (execPfailDeassertion s) rfl running ((if_pos asserted).trans (if_pos flush))

theorem exec_pfailDeassertion_other {s : State} (running : s.inReset = false)
    (asserted : s.drain.pfailAsserted = true) (other : s.os.part ≠ .flush) :
    exec .pfailDeassertion s = .next (s.setPfail false).settle := by
  refine exec_next (execPfailDeassertion s) rfl running ((if_pos asserted).trans (if_neg other))

/-- The state at the end of a flush budget (R146). -/
def State.budgetOver (s : State) (t0 : Micros) : State :=
  { s.advanceTo (t0 + s.budget) with
    drain := { s.drain with episode := some { budget := .expired, openedAt := t0 } } }

theorem exec_flushExpired {s : State} {t0 : Micros} (running : s.inReset = false)
    (episode : s.drain.episode = some { budget := .running, openedAt := t0 }) :
    exec .flushExpired s = .next (State.settle
      (if s.unfinished = 0 then s.budgetOver t0
      else (s.budgetOver t0).record .flushExpired none none s.unfinished)) := by
  refine exec_next (execFlushExpired s) rfl running ?_
  simp only [episode, if_true]
  by_cases over_ : s.unfinished = 0
  · rw [if_pos over_]; exact if_pos over_
  · rw [if_neg over_]; exact if_neg over_

/-- Settles O53. -/
theorem flushFollowsPfail : Obligations.FlushFollowsPfail := by
  intro s running
  refine ⟨fun deasserted => ?_, fun asserted => ⟨fun flush => ?_, fun other => ?_⟩, fun t0 episode => ?_⟩
  · rw [exec_pfailAssertion running deasserted]
    refine ⟨fun part => ?_, fun part ret => ?_, fun part => ?_⟩
    · rw [State.pfailTaken_of_run part]
      have woken := (s.setPfail true).wake_sameBut
      have journal : s.atPfail.journal = s.journal := woken .journal (by simp)
      have drain : s.atPfail.drain = { s.drain with pfailAsserted := true } := woken .drain (by simp)
      have now : s.atPfail.now = s.now := woken .now (by simp)
      have up : s.atPfail.up = s.up := woken .up (by simp)
      have aborted := State.abortWrite_sameBut (s.atPfail.setPart .flush).markAll.openEpisode
      refine ⟨_, rfl, congrArg (·.part) s.atPfail.enterFlush_os, ?_, ?_, fun w write => ?_, fun none_ => ?_,
        State.sameBut_settled (State.sameBut_trans (State.sameBut_mono s.atPfail_sameBut (by simp))
          (State.enterFlush_sameBut _))⟩
      · exact (aborted .journal (by simp)).trans (congrArg (List.map _) journal)
      · exact s.atPfail.enterFlush_drain.trans (by rw [drain, now])
      · have write' : s.atPfail.up.phase = .write w := by rw [up, write]
        exact congrArg (·.phase) (State.abortWrite_up
          (s := (s.atPfail.setPart .flush).markAll.openEpisode) write')
      · have none' : ∀ w, s.atPfail.up.phase ≠ .write w := by rw [up]; exact none_
        exact (congrArg (·.up) (State.abortWrite_of_none
          (s := (s.atPfail.setPart .flush).markAll.openEpisode) none')).trans up
    · rw [State.pfailTaken_of_halt part ret]
      have opened := State.ensureEpisode_sameBut (s.setPfail true).markAll
      have up : (s.setPfail true).markAll.ensureEpisode.up = s.up := opened .up (by simp)
      have aborted := State.abortWrite_sameBut (s.setPfail true).markAll.ensureEpisode
      refine ⟨_, rfl, ?_, ?_, fun w write => ?_, fun none_ => ?_, State.sameBut_settled ?_⟩
      · exact (aborted .journal (by simp)).trans (opened .journal (by simp))
      · exact (aborted .drain (by simp)).trans (State.ensureEpisode_drain _)
      · have write' : (s.setPfail true).markAll.ensureEpisode.up.phase = .write w := by rw [up, write]
        exact (State.abortWrite_up write').trans (by rw [up])
      · have none' : ∀ w, (s.setPfail true).markAll.ensureEpisode.up.phase ≠ .write w := by
          rw [up]; exact none_
        rw [State.abortWrite_of_none none']
        exact up
      · refine State.sameBut_trans (State.sameBut_mono (s.setPfail_sameBut true) (by simp)) ?_
        refine State.sameBut_trans (State.sameBut_mono (State.markAll_sameBut _) (by simp)) ?_
        exact State.sameBut_trans (State.sameBut_mono opened (by simp)) (State.sameBut_mono aborted (by simp))
    · have part' := State.pfailTaken_of_other (s := s.setPfail true) part
      rw [part']
      exact ⟨_, rfl, rfl, State.sameBut_settled (s.setPfail_sameBut true)⟩
  · refine ⟨_, exec_pfailDeassertion_flush running asserted flush, rfl, rfl, State.sameBut_settled ?_⟩
    intro p hp; cases p <;> simp_all [State.sameAt, State.setPfail, State.closeEpisode, State.setPart]
  · exact ⟨_, exec_pfailDeassertion_other running asserted other, rfl,
      State.sameBut_settled (s.setPfail_sameBut false)⟩
  · refine ⟨_, exec_flushExpired running episode, ?_⟩
    by_cases none_ : s.unfinished = 0
    · rw [if_pos none_, if_pos none_]
      refine ⟨rfl, rfl, rfl, State.sameBut_settled ?_⟩
      intro p hp; cases p <;> simp_all [State.sameAt, State.budgetOver]
    · rw [if_neg none_, if_neg none_]
      refine ⟨rfl, rfl, rfl, State.sameBut_settled ?_⟩
      intro p hp; cases p <;> simp_all [State.sameAt, State.budgetOver]

/-! ## DOZE (R174, R175) -/

/-- The state when the quiesce timer has run out (R174). -/
def State.dozing (s : State) (t0 : Micros) : State :=
  { s.advanceTo (t0 + s.quiesceTime) with
    os := { s.os with part := .doze, ret := some s.os.part, quiesce := none } }

/-- Settles O54. -/
theorem quiesceEntersDoze : Obligations.QuiesceEntersDoze := by
  intro s running
  refine ⟨fun t0 timer => ?_, fun doze open_ => ?_⟩
  · refine ⟨_, exec_next (u := s.dozing t0) (execQuiesceExpiry s) rfl running ?_, rfl, ?_,
      State.sameBut_settled ?_⟩
    · simp only [timer]; rfl
    · have awakeOnly : (s.dozing t0).quiet = false := rfl
      simp only [State.settle, awakeOnly]; rfl
    · intro p hp; cases p <;> simp_all [State.sameAt, State.dozing]
  · obtain ⟨part, mode⟩ := s.wake_part
    exact ⟨_, exec_next (u := s.wake) (execMrxStartBit s) rfl running (if_pos ⟨doze, open_⟩),
      part.trans (if_pos doze), by simp [State.wake, doze], mode, State.sameBut_settled s.wake_sameBut⟩

end Sys2Proof.Machine
end

section
/-! SUPPORT. The maintenance receiver and the checks of decoding (R178 to R180). -/

namespace Sys2Proof.Machine

/-! ## The receiver, byte by byte (R179) -/

theorem State.setRx_sameBut (s : State) (rx : Receiver) : s.sameBut (s.setRx rx) [.port] := by
  intro p hp; cases p <;> simp_all [State.sameAt, State.setRx]

section
variable {s : State} (running : s.inReset = false) (awake : s.os.part ≠ .doze)
include running awake

theorem exec_mrxByte (open_ : s.port.rx ≠ .stopped) (b : Byte) (stopHigh : Bool) :
    exec (.mrxByte b stopHigh) s = .next (s.receive b stopHigh).settle := by
  refine exec_next (execMrxByte b stopHigh s) rfl running ?_
  rw [State.wake_of_awake awake]
  split
  · contradiction
  · rfl

/-- A byte in HUNT. -/
theorem exec_mrxByte_hunt (rx : s.port.rx = .hunt) (b : Byte) (stopHigh : Bool) :
    exec (.mrxByte b stopHigh) s =
      .next (State.settle (if stopHigh && b == 0xA5 then s.setRx (.frame [] s.now) else s)) := by
  rw [exec_mrxByte running awake (by rw [rx]; nofun)]
  simp only [State.receive, rx]

/-- A byte of a frame, with its stop bit high. -/
theorem exec_mrxByte_frame {bytes : List Byte} {t0 : Micros} (rx : s.port.rx = .frame bytes t0) (b : Byte) :
    exec (.mrxByte b true) s = .next (s.frameByte bytes b).settle := by
  rw [exec_mrxByte running awake (by rw [rx]; nofun)]
  simp only [State.receive, rx, if_true]

/-- A byte of a frame, with its stop bit low. -/
theorem exec_mrxByte_framing {bytes : List Byte} {t0 : Micros} (rx : s.port.rx = .frame bytes t0) (b : Byte) :
    exec (.mrxByte b false) s = .next (s.setRx .hunt).settle := by
  rw [exec_mrxByte running awake (by rw [rx]; nofun)]
  simp only [State.receive, rx, Bool.false_eq_true, if_false]

end

section
variable (s : State) {bytes : List Byte} {b : Byte}

theorem State.frameByte_joins (joins : bytes.length < 2 ∨ (bytes.length = 2 ∧ b.toNat ≤ 72) ∨
      (3 ≤ bytes.length ∧ bytes.length < 3 + (bytes.getD 2 0).toNat)) :
    s.frameByte bytes b = s.setRx (.frame (bytes ++ [b]) s.now) := by
  unfold State.frameByte
  obtain header | ⟨two, short⟩ | ⟨three, inside⟩ := joins
  · exact if_pos header
  · have limit : ¬ Config.requestPayload < b.toNat := Nat.not_lt.mpr short
    simp [two, limit]
  · have inside' : bytes.length < 3 + imageNat bytes 2 := inside
    simp only
    rw [if_neg (by omega), if_neg (by omega), if_pos inside']

theorem State.frameByte_discards (bad : bytes.length = 2 ∧ 72 < b.toNat ∨
      (3 ≤ bytes.length ∧ bytes.length = 3 + (bytes.getD 2 0).toNat ∧ crc8 bytes ≠ b)) :
    s.frameByte bytes b = s.setRx .hunt := by
  unfold State.frameByte
  obtain ⟨two, long⟩ | ⟨three, whole, crc⟩ := bad
  · have limit : Config.requestPayload < b.toNat := long
    simp [two, limit]
  · have whole' : ¬ bytes.length < 3 + imageNat bytes 2 := Nat.not_lt.mpr whole.ge
    simp only
    rw [if_neg (by omega), if_neg (by omega), if_neg whole', if_neg crc]

/-- The byte that matches the CRC gives the frame to its decoding (R180). -/
theorem State.frameByte_decodes {code seq len : Byte} {payload : List Byte}
    (whole : payload.length = len.toNat) :
    s.frameByte (code :: seq :: len :: payload) (crc8 (code :: seq :: len :: payload)) =
      (s.setRx .hunt).decodeFrame code seq payload := by
  have length : (code :: seq :: len :: payload).length = 3 + imageNat (code :: seq :: len :: payload) 2 := by
    show payload.length + 1 + 1 + 1 = 3 + len.toNat
    omega
  unfold State.frameByte
  simp only
  rw [if_neg (by simp), if_neg (by simp), if_neg (by omega)]
  exact if_pos trivial

end

/-- Settles O55. -/
theorem framesAreReceivedByteByByte : Obligations.FramesAreReceivedByteByByte := by
  intro s b running awake
  refine ⟨fun hunt => ⟨?_, fun stop dropped => ?_⟩, fun bytes t0 frame => ⟨?_, fun joins => ?_, fun bad => ?_,
    fun code seq len payload made whole short => ?_, ?_⟩⟩
  · exact ⟨_, exec_mrxByte_hunt running awake hunt 0xA5 true, rfl, State.sameBut_settled (s.setRx_sameBut _)⟩
  · have noSync : (stop && b == 0xA5) = false := by
      obtain low | other := dropped
      · rw [low, Bool.false_and]
      · rw [beq_eq_false_iff_ne.mpr other, Bool.and_false]
    have goes := exec_mrxByte_hunt running awake hunt b stop
    rw [noSync] at goes
    exact ⟨_, goes, State.sameBut_settle s⟩
  · exact ⟨_, exec_mrxByte_framing running awake frame b, rfl, State.sameBut_settled (s.setRx_sameBut _)⟩
  · have goes := exec_mrxByte_frame running awake frame b
    rw [s.frameByte_joins joins] at goes
    exact ⟨_, goes, rfl, State.sameBut_settled (s.setRx_sameBut _)⟩
  · have goes := exec_mrxByte_frame running awake frame b
    rw [s.frameByte_discards bad] at goes
    exact ⟨_, goes, rfl, State.sameBut_settled (s.setRx_sameBut _)⟩
  · have open_ : s.port.rx ≠ .stopped := by rw [frame]; nofun
    have goes : exec (.mrxByte (crc8 bytes) true) s = s.takeFrame code seq payload := by
      rw [exec_mrxByte_frame running awake frame, made, s.frameByte_decodes whole,
        State.takeFrame_eq running open_ code seq short, State.wake_of_awake awake]
    exact ⟨fun c named => by rw [goes, exec_row, named], goes⟩
  · refine ⟨_, exec_next (u := (s.advanceTo (t0 + frameGap)).setRx .hunt) (execFrameGapTimeout s) rfl running
      (by simp only [frame]), rfl, rfl, State.sameBut_settled ?_⟩
    intro p hp; cases p <;> simp_all [State.sameAt, State.setRx]

/-! ## The checks of decoding (R180) -/

section
variable {s : State} {code seq : Byte} {payload : List Byte}

theorem State.decodeFrame_busy {k : Command} (cmd : s.port.cmd = some k) :
    s.decodeFrame code seq payload = s.answerBusy code seq :=
  if_pos (by rw [cmd]; rfl)

theorem Cmd.ofCode_eq_none (unknown : code ∉ commandCodes) : Cmd.ofCode code = none := by
  have codes : Cmd.all.map Cmd.code = commandCodes := by decide
  refine List.find?_eq_none.mpr fun c known same => unknown ?_
  rw [← codes, ← eq_of_beq same]
  exact List.mem_map_of_mem known

section
variable (free : s.port.cmd = none)
include free

theorem State.decodeFrame_unknown (unknown : code ∉ commandCodes) :
    s.decodeFrame code seq payload = s.answer code seq .unknownCommand [] := by
  unfold State.decodeFrame
  rw [if_neg (by simp [free]), Cmd.ofCode_eq_none unknown]

theorem State.decodeFrame_monitor {c : Cmd} (mode : s.os.mode = .monitor) (service : c.inMonitor = false) :
    s.decodeFrame c.code seq payload = s.answer c.code seq .notPermitted [] := by
  unfold State.decodeFrame
  rw [if_neg (by simp [free]), Cmd.ofCode_code]
  exact if_pos ⟨mode, service⟩

theorem State.decodeFrame_length {c : Cmd} (mode : s.os.mode = .monitor → c.inMonitor = true)
    (wrong : payload.length ≠ c.requestLength) :
    s.decodeFrame c.code seq payload = s.answer c.code seq .badLength [] := by
  unfold State.decodeFrame
  rw [if_neg (by simp [free]), Cmd.ofCode_code]
  have permitted : ¬(s.os.mode = .monitor ∧ c.inMonitor = false) := by
    rintro ⟨monitor, service⟩; simp [mode monitor] at service
  exact (if_neg permitted).trans (if_pos wrong)

end
end

theorem exec_unknownCommand (code seq : Byte) (payload : List Byte) (s : State) :
    exec (.unknownCommand code seq payload) s = s.takeFrame code seq payload := rfl

/-- Settles O56. -/
theorem framesAreDecodedInOrder : Obligations.FramesAreDecodedInOrder := by
  intro s c code seq payload running short
  refine ⟨fun stopped => ?_, fun open_ doze ret => ?_, fun open_ awake => ⟨fun k cmd => ⟨fun room => ?_,
    fun full => ?_⟩, fun free => ⟨fun unknown => ?_, fun mode service => ?_, fun ready wrong => ?_⟩⟩⟩
  · rw [exec_row]
    exact State.take_none (by simp only [stopped])
  · have part : s.wake.os.part ≠ .doze := by
      rw [s.wake_part.1, if_pos doze]
      cases h : s.os.ret with
      | none => nofun
      | some p => exact fun same => ret (by rw [h]; exact congrArg some same)
    have port : s.wake.port = s.port := s.wake_sameBut .port (by simp)
    have running' : s.wake.inReset = false := (s.wake_sameBut .inReset (by simp)).trans running
    rw [exec_row, exec_row, State.takeFrame_eq running open_ _ _ short,
      State.takeFrame_eq running' (by rw [port]; exact open_) _ _ short, State.wake_of_awake part]
  all_goals
    have arrives : ∀ code, s.takeFrame code seq payload = .next ((s.setRx .hunt).decodeFrame code seq payload).settle := by
      intro code
      rw [State.takeFrame_eq running open_ code seq short, State.wake_of_awake awake]
  · have room' : ¬ (s.setRx .hunt).port.busyPlaceFull = true := by
      show ¬ s.port.busyPlaceFull = true
      rw [room]; nofun
    have answers : (s.setRx .hunt).answerBusy c.code seq = _ := if_neg room'
    rw [exec_row, arrives, State.decodeFrame_busy (s := s.setRx .hunt) cmd, answers]
    refine ⟨_, rfl, rfl, State.sameBut_settled ?_⟩
    intro p hp; cases p <;> simp_all [State.sameAt, State.setRx]
  · have drops : (s.setRx .hunt).answerBusy c.code seq = s.setRx .hunt := if_pos full
    rw [exec_row, arrives, State.decodeFrame_busy (s := s.setRx .hunt) cmd, drops]
    exact ⟨_, rfl, rfl, State.sameBut_settled (s.setRx_sameBut _)⟩
  · rw [exec_unknownCommand, arrives, State.decodeFrame_unknown (s := s.setRx .hunt) free unknown]
    exact ⟨_, rfl, State.answer_port_hunt rfl _ _ _ _, State.answer_frame (State.sameBut_refl _ []) _ _ _ _⟩
  · rw [exec_row, arrives, State.decodeFrame_monitor (s := s.setRx .hunt) free mode service]
    exact ⟨_, rfl, State.answer_port_hunt rfl _ _ _ _, State.answer_frame (State.sameBut_refl _ []) _ _ _ _⟩
  · rw [exec_row, arrives, State.decodeFrame_length (s := s.setRx .hunt) free ready.mode wrong]
    exact ⟨_, rfl, State.answer_port_hunt rfl _ _ _ _, State.answer_frame (State.sameBut_refl _ []) _ _ _ _⟩

/-! ## The commands that report (R183 to R185) -/

/-- READ_FAULTS marks the oldest unread records, up to their number (R157). -/
theorem markOldest_eq (n : Nat) (l : List FaultRecord) :
    markOldest n l =
      l.mapIdx fun i r =>
        if r.read = false ∧ (l.take i).countP (fun q => !q.read) < n then { r with read := true } else r := by
  induction l generalizing n with
  | nil => cases n <;> rfl
  | cons r rest ih =>
    rw [List.mapIdx_cons]
    cases n with
    | zero =>
      have kept : (rest.mapIdx fun _ r => r) = rest := List.mapIdx_eq_iff.mpr fun i => by simp
      simp [markOldest, kept]
    | succ n =>
      cases read : r.read with
      | true => simp [markOldest, read, ih]
      | false => simp [markOldest, read, ih]

section
variable {s : State} (seq b : Byte)

theorem State.ReadyFor.exec_status (ready : s.ReadyFor .status) :
    exec (.status seq []) s =
      .next ((s.setRx .hunt).answer 0x01 seq .ok (s.setRx .hunt).statusPayload).settle :=
  ready.exec_eq seq (payload := []) rfl

theorem State.ReadyFor.exec_readEntry (ready : s.ReadyFor .readEntry) :
    exec (.readEntry seq [b]) s = .next ((s.setRx .hunt).runReadEntry 0x02 seq [b]).settle :=
  ready.exec_eq seq (payload := [b]) rfl

theorem State.ReadyFor.exec_readFaults (ready : s.ReadyFor .readFaults) :
    exec (.readFaults seq []) s = .next ((s.setRx .hunt).runReadFaults 0x03 seq []).settle :=
  ready.exec_eq seq (payload := []) rfl

theorem State.ReadyFor.exec_clearFaults (ready : s.ReadyFor .clearFaults) :
    exec (.clearFaults seq []) s = .next ((s.setRx .hunt).runClearFaults 0x10 seq []).settle :=
  ready.exec_eq seq (payload := []) rfl

end

/-- Settles O57. -/
theorem reportingCommandsAnswer : Obligations.ReportingCommandsAnswer := by
  intro s seq b
  refine ⟨fun ready => ?_, fun ready => ⟨fun e entry => ?_, fun beyond => ?_⟩, fun ready => ?_, fun ready => ?_⟩
  · refine ⟨_, ready.exec_status seq, (State.answer_port_hunt rfl _ _ _ _).trans ?_,
      State.answer_frame (State.sameBut_refl _ []) _ _ _ _⟩
    have states : (List.range 8).map (s.setRx .hunt).memberByte =
        (List.range 8).map fun i => ((s.members[i]?).map (fun m => m.state.code)).getD 0xFF :=
      List.map_congr_left fun i _ => by
        show s.memberByte i = _
        unfold State.memberByte
        cases s.members[i]? <;> rfl
    rw [State.statusPayload, states]
    rfl
  · have found : (s.setRx .hunt).journal[imageNat [b] 0]? = some e := entry
    have goes := ready.exec_readEntry seq b
    simp only [State.runReadEntry, found] at goes
    exact ⟨_, goes, State.answer_port_hunt rfl _ _ _ _,
      State.answer_frame (State.sameBut_refl _ []) _ _ _ _⟩
  · have none_ : (s.setRx .hunt).journal[imageNat [b] 0]? = none := List.getElem?_eq_none beyond
    have goes := ready.exec_readEntry seq b
    simp only [State.runReadEntry, none_] at goes
    exact ⟨_, goes, State.answer_port_hunt rfl _ _ _ _,
      State.answer_frame (State.sameBut_refl _ []) _ _ _ _⟩
  · have marked : (s.setRx .hunt).sameBut { s.setRx .hunt with log := markOldest 4 s.log } [.log] := by
      intro p hp; cases p <;> simp_all [State.sameAt]
    exact ⟨_, ready.exec_readFaults seq, State.answer_port_hunt rfl _ _ _ _, markOldest_eq 4 s.log,
      State.answer_frame marked _ _ _ _⟩
  · have cleared : (s.setRx .hunt).sameBut { s.setRx .hunt with log := [] } [.log] := by
      intro p hp; cases p <;> simp_all [State.sameAt]
    refine ⟨_, ready.exec_clearFaults seq, rfl, rfl, State.answer_port_hunt rfl _ _ _ _, ?_,
      State.answer_frame cleared _ _ _ _⟩
    show (!s.inReset && (s.anyHeld || s.os.part == .haltDown || s.invalidAlert || (s.os.mode != .off && false))) = _
    rw [ready.released, Bool.and_false, Bool.or_false]
    rfl

end Sys2Proof.Machine
end

section
/-! SUPPORT. The commands that change the part state, and the deferred change (R118, R173, R191 to R193). -/

namespace Sys2Proof.Machine

/-! ## What a frame makes of the port -/

/-- A frame answered at its decoding (R181). -/
theorem State.answersAtOnce {s : State} {r : Result} {code seq : Byte} {st : Status} {pl : List Byte}
    (goes : r = .next ((s.setRx .hunt).answer code seq st pl).settle) :
    ∃ t, r = .next t ∧ t.port = s.port.answered code seq st pl ∧ s.sameBut t [.port] :=
  ⟨_, goes, State.answer_port_hunt rfl _ _ _ _, State.answer_frame (State.sameBut_refl _ []) _ _ _ _⟩

/-- A command that takes time, at its decoding (R180). -/
def State.started (s : State) (code seq : Byte) (j : Job) : State :=
  (s.setRx .hunt).startJob code seq j

theorem State.started_sameBut (s : State) (code seq : Byte) (j : Job) :
    s.sameBut (s.started code seq j) [.port] := by
  intro p hp; cases p <;> simp_all [State.sameAt, State.started, State.setRx, State.startJob]

/-- A command refused just after its start is a frame refused at once. -/
theorem State.refuse_started (s : State) (code seq : Byte) (j : Job) (reason : Byte) :
    (s.started code seq j).refuse reason = (s.setRx .hunt).answer code seq .refused [reason] := rfl

/-- The end of the command in progress (R181). -/
theorem State.refuses {s : State} {r : Result} {k : Command} {reason : Byte} (cmd : s.port.cmd = some k)
    (goes : r = .next (s.refuse reason).settle) :
    ∃ t, r = .next t ∧ t.port = s.port.ended k .refused [reason] ∧ s.sameBut t [.port] :=
  ⟨_, goes, State.finish_port cmd _ _, State.sameBut_settled (s.refuse_sameBut _)⟩

/-! ## The changes (R173, R191) -/

section
variable {s : State}

theorem State.changeReload_of_empty (part : s.os.part = .run ∨ s.os.part = .passthrough)
    (empty : s.journal = []) : s.changeReload = s.startReload := by
  obtain h | h := part <;> simp [State.changeReload, h, empty]

theorem State.changeReload_of_entries (part : s.os.part = .run ∨ s.os.part = .passthrough)
    (entries : s.journal ≠ []) : s.changeReload = s.refuse reasonJournalNotEmpty := by
  obtain h | h := part <;> simp [State.changeReload, h, entries]

theorem State.changeReload_of_other (notRun : s.os.part ≠ .run) (notPass : s.os.part ≠ .passthrough) :
    s.changeReload = s.refuse reasonWrongState := by
  unfold State.changeReload
  split
  · contradiction
  · contradiction
  · rfl

/-- The members' states are left, the part is in PASSTHROUGH by request (R173). -/
def State.passed (s : State) : State :=
  { s with
    members := s.members.map fun (m : Member) => { m with state := .unset }
    os := { s.os with part := .passthrough, cause := some .request } }

theorem State.changePass_of_empty (part : s.os.part = .run) (empty : s.journal = []) :
    s.changePass = s.passed.finish .ok [] :=
  (if_pos part).trans (if_pos (by simp [empty]))

theorem State.changePass_of_entries (part : s.os.part = .run) (entries : s.journal ≠ []) :
    s.changePass = s.refuse reasonJournalNotEmpty := by
  simp [State.changePass, part, entries]

theorem State.changePass_of_other (notRun : s.os.part ≠ .run) :
    s.changePass = s.refuse reasonWrongState := if_neg notRun

theorem State.memberState_passed (m : MemberIx) : s.passed.memberState m = .unset := by
  simp only [State.memberState, State.passed, List.getElem?_map]
  cases s.members[m.val]? <;> rfl

theorem State.pointer_passed (m : MemberIx) : s.passed.pointer m = s.pointer m := by
  simp only [State.pointer, State.passed, List.getElem?_map]
  cases s.members[m.val]? <;> rfl

theorem State.passed_finish_spec {k : Command} (cmd : s.port.cmd = some k) :
    let t := (s.passed.finish .ok []).settle
    t.port = s.port.ended k .ok [] ∧ t.os.part = .passthrough ∧ t.os.cause = some .request ∧
      (∀ m, t.memberState m = .unset) ∧ (∀ m, t.pointer m = s.pointer m) ∧
      s.sameBut t [.members, .os, .port] := by
  intro t
  have finished := s.passed.finish_sameBut .ok []
  have members : t.members = s.passed.members := finished .members (by simp)
  have os : (s.passed.finish .ok []).os = s.passed.os := by
    simp only [State.finish]; split <;> rfl
  refine ⟨State.finish_port (s := s.passed) cmd _ _, congrArg (·.part) os, congrArg (·.cause) os,
    fun m => (State.memberState_congr members m).trans (State.memberState_passed m),
    fun m => (State.pointer_congr members m).trans (State.pointer_passed m), State.sameBut_settled ?_⟩
  refine State.sameBut_trans ?_ (State.sameBut_mono finished (by simp))
  intro p hp; cases p <;> simp_all [State.sameAt, State.passed]

/-- The reload (R172). -/
theorem State.startReload_spec :
    let t := s.startReload.settle
    t.port = (s.setJob .reloading).port ∧ t.os.part = .starting ∧ t.members = [] ∧
      t.os.globals = none ∧ t.os.mode = s.os.mode ∧
      t.os.start = some (.descriptorRead { asking := .waiting, window := none }) ∧
      .descriptorRead .startUp ∈ t.ds.waiting ∧ s.sameBut t [.members, .os, .ds, .port] := by
  intro t
  have os : s.startReload.os = _ := State.requestDescriptor_os _
  have asked := State.requestDescriptor_sameBut
    { s.setJob .reloading with members := [], os := { s.os with part := .starting, globals := none } }
  refine ⟨asked .port (by simp), congrArg (·.part) os, asked .members (by simp), congrArg (·.globals) os,
    congrArg (·.mode) os, congrArg (·.start) os, (State.mem_raise _ _ _).mpr (.inl rfl),
    State.sameBut_settled (State.sameBut_trans ?_ (State.sameBut_mono asked (by simp)))⟩
  intro p hp; cases p <;> simp_all [State.sameAt]

end

/-! ## The commands at their decoding (R191 to R193) -/

section
variable {s : State} {seq : Byte}

theorem State.ReadyFor.exec_reload {c : Cmd} (ready : s.ReadyFor c) (named : c = .reload ∨ c = .leavePassthrough) :
    exec (c.row seq []) s = .next ((s.setRx .hunt).runReload c.code seq []).settle := by
  obtain rfl | rfl := named
  · exact ready.exec_eq seq (payload := []) rfl
  · exact ready.exec_eq seq (payload := []) rfl

theorem State.runReload_eq {code : Byte} (part : s.os.part = .run ∨ s.os.part = .passthrough) :
    (s.setRx .hunt).runReload code seq [] =
      if s.upstreamOpen then s.started code seq .reloadWaiting
      else (s.started code seq .reloadWaiting).changeReload := by
  have part' : (s.setRx .hunt).os.part = .run ∨ (s.setRx .hunt).os.part = .passthrough := part
  obtain h | h := part' <;> (simp only [State.runReload, h]; rfl)

theorem State.runReload_of_other {code : Byte} (notRun : s.os.part ≠ .run)
    (notPass : s.os.part ≠ .passthrough) :
    (s.setRx .hunt).runReload code seq [] = (s.setRx .hunt).answer code seq .refused [17] := by
  unfold State.runReload
  split
  · contradiction
  · contradiction
  · rfl

theorem State.ReadyFor.exec_enterPass (ready : s.ReadyFor .enterPassthrough) :
    exec (.enterPassthrough seq []) s = .next ((s.setRx .hunt).runEnterPass 0x17 seq []).settle :=
  ready.exec_eq seq (payload := []) rfl

theorem State.runEnterPass_eq {code : Byte} (part : s.os.part = .run) :
    (s.setRx .hunt).runEnterPass code seq [] =
      if s.upstreamOpen then s.started code seq .passWaiting
      else (s.started code seq .passWaiting).changePass := if_pos part

theorem State.runEnterPass_of_other {code : Byte} (notRun : s.os.part ≠ .run) :
    (s.setRx .hunt).runEnterPass code seq [] = (s.setRx .hunt).answer code seq .refused [17] :=
  if_neg notRun

theorem State.ReadyFor.exec_softReset (ready : s.ReadyFor .softReset) (flags : Byte) :
    exec (.softReset seq [flags]) s = .next ((s.setRx .hunt).runSoftReset 0x18 seq [flags]).settle :=
  ready.exec_eq seq (payload := [flags]) rfl

theorem State.runSoftReset_of_entries {code flags : Byte} (plain : flags = 0) (entries : s.journal ≠ []) :
    (s.setRx .hunt).runSoftReset code seq [flags] = (s.setRx .hunt).answer code seq .refused [16] := by
  subst plain
  have refused : (!s.journal.isEmpty && imageNat [0] 0 == 0) = true := by
    simp [entries, imageNat]
  have inRange : ¬ 1 < imageNat [0] 0 := by decide
  unfold State.runSoftReset
  dsimp only
  rw [if_neg inRange]
  exact if_pos refused

/-- SOFT_RESET is accepted with FORCE or with an empty journal (R193). -/
theorem State.runSoftReset_accepted {code flags : Byte} (accepted : flags = 1 ∨ (flags = 0 ∧ s.journal = [])) :
    (s.setRx .hunt).runSoftReset code seq [flags] =
      ((s.setRx .hunt).answer code seq .ok []).setJob .resetArmed := by
  have inRange : ¬ 1 < imageNat [flags] 0 := by
    obtain rfl | ⟨rfl, -⟩ := accepted <;> decide
  have goesOn : ¬ (!s.journal.isEmpty && imageNat [flags] 0 == 0) = true := by
    obtain rfl | ⟨rfl, empty⟩ := accepted
    · simp [imageNat]
    · simp [empty]
  exact (if_neg inRange).trans (if_neg goesOn)

/-- The deferred change (R118). -/
theorem exec_deferredChange_reload {k : Command} (running : s.inReset = false) (closed : s.upstreamOpen = false)
    (cmd : s.port.cmd = some k) (job : k.job = .reloadWaiting) :
    exec .deferredChange s = .next s.changeReload.settle := by
  refine exec_next (execDeferredChange s) rfl running ?_
  simp [closed, State.job, cmd, job]

theorem exec_deferredChange_pass {k : Command} (running : s.inReset = false) (closed : s.upstreamOpen = false)
    (cmd : s.port.cmd = some k) (job : k.job = .passWaiting) :
    exec .deferredChange s = .next s.changePass.settle := by
  refine exec_next (execDeferredChange s) rfl running ?_
  simp [closed, State.job, cmd, job]

end

/-- Settles O60. -/
theorem partChangesByCommand : Obligations.PartChangesByCommand := by
  intro s seq flags c
  refine ⟨fun ready named => ⟨fun part => ?_, fun notRun notPass => ?_⟩,
    fun ready => ⟨fun part => ?_, fun notRun => ?_⟩, fun k running closed cmd => ⟨fun job empty part => ?_,
      fun job empty part => ?_, fun job part entries => ?_, fun job notRun notPass => ?_⟩,
    fun ready => ⟨fun beyond => ?_, fun plain entries => ?_, fun accepted => ?_⟩⟩
  · have goes := ready.exec_reload (seq := seq) named
    rw [State.runReload_eq part] at goes
    refine ⟨fun open_ => ?_, fun closed entries => ?_, fun closed empty => ?_⟩
    · rw [if_pos open_] at goes
      exact ⟨_, goes, rfl, State.sameBut_settled (s.started_sameBut _ _ _)⟩
    · rw [if_neg (by simp [closed]), State.changeReload_of_entries (s := s.started _ _ _) part entries,
        State.refuse_started] at goes
      exact State.answersAtOnce goes
    · rw [if_neg (by simp [closed]), State.changeReload_of_empty (s := s.started _ _ _) part empty] at goes
      obtain ⟨port, part', members, globals, mode, start, asks, same⟩ :=
        State.startReload_spec (s := s.started c.code seq .reloadWaiting)
      exact ⟨_, goes, port, part', members, globals, mode, start, asks,
        State.sameBut_trans (State.sameBut_mono (s.started_sameBut _ _ _) (by simp)) same⟩
  · have goes := ready.exec_reload (seq := seq) named
    rw [State.runReload_of_other notRun notPass] at goes
    exact State.answersAtOnce goes
  · have goes := ready.exec_enterPass (seq := seq)
    rw [State.runEnterPass_eq part] at goes
    refine ⟨fun open_ => ?_, fun closed entries => ?_, fun closed empty => ?_⟩
    · rw [if_pos open_] at goes
      exact ⟨_, goes, rfl, State.sameBut_settled (s.started_sameBut _ _ _)⟩
    · rw [if_neg (by simp [closed]), State.changePass_of_entries (s := s.started _ _ _) part entries,
        State.refuse_started] at goes
      exact State.answersAtOnce goes
    · rw [if_neg (by simp [closed]), State.changePass_of_empty (s := s.started _ _ _) part empty] at goes
      obtain ⟨port, part', cause, states, pointers, same⟩ :=
        State.passed_finish_spec (s := s.started 0x17 seq .passWaiting) rfl
      exact ⟨_, goes, port, part', cause, states, pointers,
        State.sameBut_trans (State.sameBut_mono (s.started_sameBut _ _ _) (by simp)) same⟩
  · have goes := ready.exec_enterPass (seq := seq)
    rw [State.runEnterPass_of_other notRun] at goes
    exact State.answersAtOnce goes
  · have goes := exec_deferredChange_reload running closed cmd job
    rw [State.changeReload_of_empty part empty] at goes
    obtain ⟨port, part', members, globals, -, -, asks, same⟩ := State.startReload_spec (s := s)
    exact ⟨_, goes, port.trans (by simp only [State.setJob, cmd, Option.map_some]), part', members, globals,
      asks, same⟩
  · have goes := exec_deferredChange_pass running closed cmd job
    rw [State.changePass_of_empty part empty] at goes
    obtain ⟨port, part', cause, states, -, same⟩ := State.passed_finish_spec (s := s) cmd
    exact ⟨_, goes, port, part', cause, states, same⟩
  · refine State.refuses cmd ?_
    obtain job | job := job
    · rw [exec_deferredChange_reload running closed cmd job, State.changeReload_of_entries (.inl part) entries]
      rfl
    · rw [exec_deferredChange_pass running closed cmd job, State.changePass_of_entries part entries]
      rfl
  · refine State.refuses cmd ?_
    obtain job | job := job
    · rw [exec_deferredChange_reload running closed cmd job, State.changeReload_of_other notRun notPass]
      rfl
    · rw [exec_deferredChange_pass running closed cmd job, State.changePass_of_other notRun]
      rfl
  · have goes := ready.exec_softReset (seq := seq) flags
    have bad : (s.setRx .hunt).runSoftReset 0x18 seq [flags] = _ := if_pos beyond
    rw [bad] at goes
    exact State.answersAtOnce goes
  · have goes := ready.exec_softReset (seq := seq) flags
    rw [State.runSoftReset_of_entries plain entries] at goes
    exact State.answersAtOnce goes
  · have goes := ready.exec_softReset (seq := seq) flags
    rw [State.runSoftReset_accepted accepted] at goes
    obtain ⟨t, answered, port, same⟩ := State.answersAtOnce (s := s) (code := 0x18) (seq := seq) (st := .ok)
      (pl := []) rfl
    injection answered with eq
    subst eq
    refine ⟨_, goes, ?_, State.sameBut_settled (State.sameBut_trans
      (t := ((s.setRx .hunt).answer 0x18 seq .ok []).settle) same ?_)⟩
    · exact congrArg (fun p : Port => { p with cmd := p.cmd.map fun (c : Command) => { c with job := .resetArmed } })
        port
    · exact State.setJob_sameBut _ _

end Sys2Proof.Machine
end

section
/-! SUPPORT. READ_DESCRIPTOR and WRITE_DESCRIPTOR, their steps and their repeats (R186, R189). -/

namespace Sys2Proof.Machine

theorem next_of_eq {r : Result} {u v : State} (goes : r = .next u.settle) (eq : u = v) :
    r = .next v.settle := eq ▸ goes

/-! ## What a step makes of the command in progress -/

section
variable {s : State} {k : Command} (cmd : s.port.cmd = some k)
include cmd

theorem State.setJob_port (j : Job) : (s.setJob j).port = { s.port with cmd := some { k with job := j } } := by
  simp only [State.setJob, cmd, Option.map_some]

/-- The transaction is over and the command goes on. -/
theorem State.transactionOver_goesOn (j : Job) :
    (s.endTransaction.setJob j).settle.port = { s.port with cmd := some { k with job := j } } ∧
      (s.endTransaction.setJob j).settle.ds.ctl = .free ∧
      s.sameBut (s.endTransaction.setJob j).settle [.port, .ds] :=
  ⟨State.setJob_port (s := s.endTransaction) cmd j, rfl,
    State.endTransaction_frame (State.sameBut_mono (State.setJob_sameBut _ j) (by simp)) (by simp)⟩

/-- The transaction is over and the command ends. -/
theorem State.transactionOver_ended (st : Status) (pl : List Byte) :
    (s.endTransaction.finish st pl).settle.port = s.port.ended k st pl ∧
      (s.endTransaction.finish st pl).settle.ds.ctl = .free ∧
      s.sameBut (s.endTransaction.finish st pl).settle [.port, .ds] := by
  have finished := State.finish_sameBut s.endTransaction st pl
  have ds : (s.endTransaction.finish st pl).ds = s.endTransaction.ds := finished .ds (by simp)
  exact ⟨State.finish_port (s := s.endTransaction) cmd _ _, congrArg (·.ctl) ds,
    State.endTransaction_frame (State.sameBut_mono finished (by simp)) (by simp)⟩

theorem State.transactionOver_refused (reason : Byte) :
    (s.endTransaction.refuse reason).settle.port = s.port.ended k .refused [reason] ∧
      (s.endTransaction.refuse reason).settle.ds.ctl = .free ∧
      s.sameBut (s.endTransaction.refuse reason).settle [.port, .ds] :=
  State.transactionOver_ended cmd .refused [reason]

/-- The command asks for its next transaction. -/
theorem State.jobAsks_spec (j : Job) (r : Request) :
    ((s.setJob j).raise r).settle.port = { s.port with cmd := some { k with job := j } } ∧
      r ∈ ((s.setJob j).raise r).settle.ds.waiting ∧
      s.sameBut ((s.setJob j).raise r).settle [.port, .ds] := by
  have raised := (s.setJob j).raise_sameBut r
  exact ⟨(raised .port (by simp)).trans (State.setJob_port cmd j), (State.mem_raise _ _ _).mpr (.inl rfl),
    State.sameBut_settled (State.sameBut_trans (State.sameBut_mono (State.setJob_sameBut _ j) (by simp))
      (State.sameBut_mono raised (by simp)))⟩

theorem State.job_of_cmd {j : Job} (job : k.job = j) : s.job = some j := by
  rw [State.job, cmd, Option.map_some, job]

variable {a : Access} {mk : Access → Job} (form : mk = .readDescriptor ∨ ∃ written, mk = .readBack written)
  (job : k.job = mk a)
include form job

theorem State.portAccess_eq : s.portAccess = some a := by
  have progress := State.job_of_cmd cmd job
  obtain rfl | ⟨written, rfl⟩ := form <;> simp only [State.portAccess, progress]

theorem State.setPortAccess_eq (b : Access) : s.setPortAccess b = s.setJob (mk b) := by
  have progress := State.job_of_cmd cmd job
  obtain rfl | ⟨written, rfl⟩ := form <;> simp only [State.setPortAccess, progress]

end

/-! ## The commands at their decoding -/

section
variable {s : State} {seq : Byte} {image : List Byte}

theorem State.started_asks {code : Byte} {j : Job} {r : Request} {res : Result}
    (goes : res = .next ((s.started code seq j).raise r).settle) :
    ∃ t, res = .next t ∧ t.port = s.port.started code seq j ∧ r ∈ t.ds.waiting ∧ s.sameBut t [.port, .ds] := by
  have raised := (s.started code seq j).raise_sameBut r
  exact ⟨_, goes, raised .port (by simp), (State.mem_raise _ _ _).mpr (.inl rfl),
    State.sameBut_settled (State.sameBut_trans (State.sameBut_mono (s.started_sameBut _ _ _) (by simp))
      (State.sameBut_mono raised (by simp)))⟩

theorem State.ReadyFor.exec_readDescriptor (ready : s.ReadyFor .readDescriptor) :
    exec (.readDescriptor seq []) s = .next ((s.setRx .hunt).runReadDescriptor 0x04 seq []).settle :=
  ready.exec_eq seq (payload := []) rfl

theorem State.runReadDescriptor_asks {code : Byte} (up : s.os.part ≠ .haltDown) (left : s.os.part ≠ .starting) :
    (s.setRx .hunt).runReadDescriptor code seq [] =
      (s.started code seq (.readDescriptor { asking := .waiting, window := none })).raise
        (.descriptorRead .port) := by
  unfold State.runReadDescriptor
  split
  · contradiction
  · contradiction
  · rfl

theorem State.ReadyFor.exec_writeDescriptor (ready : s.ReadyFor .writeDescriptor) (whole : image.length = 64) :
    exec (.writeDescriptor seq image) s =
      .next ((s.setRx .hunt).runWriteDescriptor 0x14 seq image).settle :=
  ready.exec_eq seq whole

/-- What remains of WRITE_DESCRIPTOR's tests once the image is valid (R189). -/
theorem State.runWriteDescriptor_valid {code : Byte} (valid : validate s.os.ads image = none) :
    (s.journal ≠ [] →
      (s.setRx .hunt).runWriteDescriptor code seq image = (s.setRx .hunt).answer code seq .refused [16]) ∧
    (s.journal = [] → s.os.part ≠ .run → s.os.part ≠ .passthrough →
      (s.setRx .hunt).runWriteDescriptor code seq image = (s.setRx .hunt).answer code seq .refused [17]) ∧
    (s.journal = [] → s.os.part = .run ∨ s.os.part = .passthrough →
      (s.setRx .hunt).runWriteDescriptor code seq image =
        (s.started code seq (.writeBlock image 0 (.writing .waiting none))).raise .descriptorWrite) := by
  have valid' : validate (s.setRx .hunt).os.ads image = none := valid
  refine ⟨fun entries => ?_, fun empty notRun notPass => ?_, fun empty part => ?_⟩
  · simp only [State.runWriteDescriptor, valid']
    exact if_pos (by simpa using entries)
  · have empty' : (s.setRx .hunt).journal = [] := empty
    simp only [State.runWriteDescriptor, valid', empty']
    simp only [List.isEmpty_nil, Bool.not_true, Bool.false_eq_true, if_false]
    split
    · contradiction
    · contradiction
    · rfl
  · have empty' : (s.setRx .hunt).journal = [] := empty
    simp only [State.runWriteDescriptor, valid', empty']
    simp only [List.isEmpty_nil, Bool.not_true, Bool.false_eq_true, if_false]
    have part' : (s.setRx .hunt).os.part = .run ∨ (s.setRx .hunt).os.part = .passthrough := part
    obtain h | h := part' <;> rw [h] <;> rfl

theorem State.runWriteDescriptor_invalid {code : Byte} {reason : Nat}
    (invalid : validate s.os.ads image = some reason) :
    (s.setRx .hunt).runWriteDescriptor code seq image =
      (s.setRx .hunt).answer code seq .refused [BitVec.ofNat 8 reason] := by
  have invalid' : validate (s.setRx .hunt).os.ads image = some reason := invalid
  simp only [State.runWriteDescriptor, invalid']; rfl

end

/-! ## The ends of the transactions of WRITE_DESCRIPTOR (R189) -/

theorem State.inProgress_of_busy {s : State} {h : Holder} {r : Request} (busy : s.ds.ctl = .busy h)
    (req : h.req = r) : s.inProgress r = true := by
  simp only [State.inProgress, busy, req, beq_self_eq_true]

section
variable {s : State} {h : Holder} (running : s.inReset = false) (busy : s.ds.ctl = .busy h)
include running busy

theorem exec_descriptorWriteEnd (req : h.req = .descriptorWrite) (report : WriteReport) :
    exec (.descriptorWriteEnd report) s = .next (s.endTransaction.blockWritten report).settle :=
  exec_next (execDescriptorWriteEnd report s) rfl running (if_pos (State.inProgress_of_busy busy req))

theorem exec_descriptorWritePollEnd (req : h.req = .descriptorPoll) (ack : Bool) :
    exec (.descriptorWritePollEnd ack) s = .next (s.endTransaction.blockPolled ack).settle :=
  exec_next (execDescriptorWritePollEnd ack s) rfl running (if_pos (State.inProgress_of_busy busy req))

theorem exec_portReadEnd {report : ReadReport} (req : h.req = .descriptorRead .port)
    (fits : ∀ dev word n bytes, h.txn = .read dev word n → report = .completed bytes →
      bytes.length = n) :
    exec (.descriptorReadEnd report) s = .next (s.endTransaction.portReadEnd report).settle := by
  refine (exec_nextRead (execDescriptorReadEnd report s) rfl running busy (by rw [req]; rfl)
    fits).trans ?_
  have other : h.req ≠ .descriptorRead .startUp := by rw [req]; nofun
  rw [if_neg other]

end

section
variable {s : State} {image : List Byte} {n : Nat} {first stopAt : Micros}

/-- The end of a block's write (R189). -/
theorem State.blockWritten_cases
    (job : s.job = some (.writeBlock image n (.writing .inProgress (some first)))) :
    s.blockWritten .completed =
      s.setJob (.writeBlock image n (.polling (.dueAt (s.now + 200)) s.now)) ∧
    (s.now + 200 ≤ first + 31000 → s.blockWritten (.nack .deviceW) =
      s.setJob (.writeBlock image n (.writing (.dueAt (s.now + 200)) (some first)))) ∧
    (∀ b, b ≠ .deviceW ∨ first + 31000 < s.now + 200 →
      s.blockWritten (.nack b) = s.refuse 19) := by
  refine ⟨?_, fun inTime => ?_, fun b fails => ?_⟩
  · simp only [State.blockWritten, job]; rfl
  · simp only [State.blockWritten, job]
    exact if_pos inTime
  · simp only [State.blockWritten, job]
    cases b with
    | deviceW =>
      obtain other | past := fails
      · exact absurd rfl other
      · exact if_neg (Nat.not_le.mpr past)
    | _ => rfl

/-- The end of a block's poll (R189). -/
theorem State.blockPolled_cases
    (job : s.job = some (.writeBlock image n (.polling .inProgress stopAt))) :
    (n < 7 → s.blockPolled true =
      (s.setJob (.writeBlock image (n + 1) (.writing .waiting none))).raise .descriptorWrite) ∧
    (7 ≤ n → s.blockPolled true =
      (s.setJob (.readBack image { asking := .waiting, window := none })).raise (.descriptorRead .port)) ∧
    (s.now + 200 ≤ stopAt + 31000 → s.blockPolled false =
      s.setJob (.writeBlock image n (.polling (.dueAt (s.now + 200)) stopAt))) ∧
    (stopAt + 31000 < s.now + 200 → s.blockPolled false = s.refuse 19) := by
  simp only [State.blockPolled, job]
  exact ⟨fun more => if_pos more, fun last => if_neg (Nat.not_lt.mpr last), fun inTime => if_pos inTime,
    fun past => if_neg (Nat.not_le.mpr past)⟩

end

/-- The end of a descriptor read of a command, refused (R186). -/
theorem State.portReadEnd_nack {s : State} {a : Access} (access : s.portAccess = some a)
    (progress : a.asking = .inProgress) :
    s.portReadEnd (.nack .deviceW) = s.setPortAccess (a.retryFrom s.now) ∧
      ∀ b, b ≠ .deviceW → s.portReadEnd (.nack b) = s.refuse 19 := by
  refine ⟨?_, fun b other => ?_⟩
  · simp only [State.portReadEnd, access, if_pos progress]
  · simp only [State.portReadEnd, access, if_pos progress]
    cases b with
    | deviceW => exact absurd rfl other
    | _ => rfl

theorem State.portReadEnd_completed {s : State} {a : Access} (access : s.portAccess = some a)
    (progress : a.asking = .inProgress) (bytes : List Byte) :
    s.portReadEnd (.completed bytes) = s.portReadDone bytes := by
  simp only [State.portReadEnd, access, if_pos progress]

/-! ## The due times (R186, R189) -/

/-- A due access of a command: it is requested, and in HALT_DOWN the command fails (R133). -/
def State.askedOrFailed (s : State) (j : Job) (r : Request) : State :=
  if s.os.part = .haltDown then s.refuse reasonAccessFailed else (s.setJob j).raise r

section
variable {s : State} {k : Command} {image : List Byte} {n : Nat} {due : Micros}
  (running : s.inReset = false) (cmd : s.port.cmd = some k)
include running cmd

theorem exec_descriptorWriteRetryDue {first : Option Micros}
    (job : k.job = .writeBlock image n (.writing (.dueAt due) first)) :
    exec .descriptorWriteRetryDue s =
      .next ((s.advanceTo due).askedOrFailed (.writeBlock image n (.writing .waiting first))
        .descriptorWrite).settle := by
  have progress := State.job_of_cmd cmd job
  refine exec_next (execDescriptorWriteRetryDue s) rfl running ?_
  simp only [progress, State.askedOrFailed]
  split <;> rfl

theorem exec_descriptorWritePollDue {stopAt : Micros}
    (job : k.job = .writeBlock image n (.polling (.dueAt due) stopAt)) :
    exec .descriptorWritePollDue s =
      .next ((s.advanceTo due).askedOrFailed (.writeBlock image n (.polling .waiting stopAt))
        .descriptorPoll).settle := by
  have progress := State.job_of_cmd cmd job
  refine exec_next (execDescriptorWritePollDue s) rfl running ?_
  simp only [progress, State.askedOrFailed]
  split <;> rfl

omit running

theorem State.askedOrFailed_spec (j : Job) (r : Request) :
    let t := ((s.advanceTo due).askedOrFailed j r).settle
    t.now = max s.now due ∧
      (s.os.part ≠ .haltDown →
        t.port = { s.port with cmd := some { k with job := j } } ∧ r ∈ t.ds.waiting) ∧
      (s.os.part = .haltDown → t.port = s.port.ended k .refused [19]) ∧
      s.sameBut t [.now, .port, .ds] := by
  intro t
  have later : s.sameBut (s.advanceTo due) [.now] := by
    intro p hp; cases p <;> simp_all [State.sameAt]
  by_cases down : s.os.part = .haltDown
  · have goes : (s.advanceTo due).askedOrFailed j r = (s.advanceTo due).refuse 19 := if_pos down
    have refused := State.refuse_sameBut (s.advanceTo due) 19
    have settled : t = ((s.advanceTo due).refuse 19).settle := congrArg State.settle goes
    rw [settled]
    exact ⟨refused .now (by simp), fun up => absurd down up, fun _ => State.finish_port (s := s.advanceTo due) cmd _ _,
      State.sameBut_settled (State.sameBut_trans (State.sameBut_mono later (by simp))
        (State.sameBut_mono refused (by simp)))⟩
  · have goes : (s.advanceTo due).askedOrFailed j r = ((s.advanceTo due).setJob j).raise r := if_neg down
    have settled : t = (((s.advanceTo due).setJob j).raise r).settle := congrArg State.settle goes
    obtain ⟨port, asks, same⟩ := State.jobAsks_spec (s := s.advanceTo due) cmd j r
    rw [settled]
    exact ⟨same .now (by simp), fun _ => ⟨port, asks⟩, fun h => absurd h down,
      State.sameBut_trans (State.sameBut_mono later (by simp)) (State.sameBut_mono same (by simp))⟩

end

/-! ## The descriptor read of a command (R186) -/

section
variable {s : State} {k : Command} {a : Access} {mk : Access → Job} {w : Micros}
  (running : s.inReset = false) (noStart : ∀ b, s.os.start ≠ some (.descriptorRead b))
  (access : s.portAccess = some a)
include running noStart access

theorem exec_portReadRetryDue {due : Micros} (asking : a.asking = .dueAt due) (window : a.window = some w) :
    exec .descriptorReadRetryDue s =
      .next (State.settle
        (if s.os.part = .haltDown then (s.advanceTo due).refuse reasonAccessFailed
        else if max s.now due < w + 10000 then
          ((s.advanceTo due).setPortAccess { a with asking := .waiting }).raise (.descriptorRead .port)
        else (s.advanceTo due).setPortAccess { a with asking := .noMore })) := by
  refine exec_next (execDescriptorReadRetryDue s) rfl running ?_
  split
  · rename_i b start; exact absurd start (noStart b)
  · rename_i found _
    rw [access] at found
    injection found with same
    subst same
    simp only [asking, window, Option.getD_some]
    by_cases down : s.os.part = .haltDown
    · rw [if_pos down]; exact if_pos down
    · rw [if_neg down]
      by_cases inTime : max s.now due < w + 10000
      · rw [if_pos inTime]; exact (if_neg down).trans (if_pos inTime)
      · rw [if_neg inTime]; exact (if_neg down).trans (if_neg inTime)
  · rename_i found _; rw [access] at found; cases found

theorem exec_portAnswerWindowEnd (window : a.window = some w) :
    exec .answerWindowEnd s =
      .next (((s.advanceTo (w + 10000)).withdraw (.descriptorRead .port)).refuse 19).settle := by
  refine exec_next (execAnswerWindowEnd s) rfl running ?_
  split
  · rename_i b start; exact absurd start (noStart b)
  · rename_i found _
    rw [access] at found
    injection found with same
    subst same
    simp only [window]; rfl
  · rename_i found _; rw [access] at found; cases found

end

section
variable {s : State} {k : Command} {a : Access} {mk : Access → Job}
  (cmd : s.port.cmd = some k) (form : mk = .readDescriptor ∨ ∃ written, mk = .readBack written)
  (job : k.job = mk a)
include cmd form job

/-- The port after a due descriptor read: requested within its window, failed in HALT_DOWN. -/
theorem State.portReadDue_spec {due w : Micros} (window : a.window = some w) :
    let t := State.settle
      (if s.os.part = .haltDown then (s.advanceTo due).refuse reasonAccessFailed
      else if max s.now due < w + 10000 then
        ((s.advanceTo due).setPortAccess { a with asking := .waiting }).raise (.descriptorRead .port)
      else (s.advanceTo due).setPortAccess { a with asking := .noMore })
    t.now = max s.now due ∧
      (s.os.part ≠ .haltDown → max s.now due < w + 10000 →
        t.port = { s.port with cmd := some { k with job := mk { asking := .waiting, window := some w } } } ∧
          .descriptorRead .port ∈ t.ds.waiting) ∧
      (s.os.part = .haltDown → t.port = s.port.ended k .refused [19]) ∧
      s.sameBut t [.now, .port, .ds] := by
  have later : s.sameBut (s.advanceTo due) [.now] := by
    intro p hp; cases p <;> simp_all [State.sameAt]
  have asks := State.setPortAccess_eq (s := s.advanceTo due) cmd form job
  by_cases down : s.os.part = .haltDown
  · have refused := State.refuse_sameBut (s.advanceTo due) reasonAccessFailed
    rw [if_pos down]
    exact ⟨refused .now (by simp), fun up => absurd down up,
      fun _ => State.finish_port (s := s.advanceTo due) cmd _ _,
      State.sameBut_settled (State.sameBut_trans (State.sameBut_mono later (by simp))
        (State.sameBut_mono refused (by simp)))⟩
  · rw [if_neg down]
    by_cases inTime : max s.now due < w + 10000
    · obtain ⟨port, waits, same⟩ := State.jobAsks_spec (s := s.advanceTo due) cmd
        (mk { a with asking := .waiting }) (.descriptorRead .port)
      rw [if_pos inTime, asks]
      refine ⟨same .now (by simp), fun _ _ => ⟨port.trans (by rw [window]; rfl), waits⟩,
        fun h => absurd h down,
        State.sameBut_trans (State.sameBut_mono later (by simp)) (State.sameBut_mono same (by simp))⟩
    · have gone := (s.advanceTo due).setPortAccess_sameBut { a with asking := .noMore }
      rw [if_neg inTime]
      exact ⟨gone .now (by simp), fun _ h => absurd h inTime, fun h => absurd h down,
        State.sameBut_settled (State.sameBut_trans (State.sameBut_mono later (by simp))
          (State.sameBut_mono gone (by simp)))⟩

end

/-- Settles O59. -/
theorem descriptorCommandsRunTheirSteps : Obligations.DescriptorCommandsRunTheirSteps := by
  intro s seq image
  refine ⟨fun ready => ⟨fun down => ?_, fun starting => ?_, fun up left => ?_⟩,
    fun ready whole => ⟨fun reason invalid => ?_, fun valid entries => ?_, fun valid empty notRun notPass => ?_,
      fun valid empty part => ?_⟩,
    fun running k n h cmd => ⟨fun first job busy req => ?_, fun stopAt job busy req => ?_,
      fun due first job => ?_, fun due stopAt job => ?_, fun a w mk form job window => ⟨fun progress busy req => ?_,
        fun noStart => ⟨fun due asking => ?_, ?_⟩⟩, fun dev word a busy req txn progress => ?_⟩⟩
  · have goes := ready.exec_readDescriptor (seq := seq)
    have down' : (s.setRx .hunt).os.part = .haltDown := down
    simp only [State.runReadDescriptor, down'] at goes
    exact State.answersAtOnce goes
  · have goes := ready.exec_readDescriptor (seq := seq)
    have starting' : (s.setRx .hunt).os.part = .starting := starting
    simp only [State.runReadDescriptor, starting'] at goes
    exact State.answersAtOnce goes
  · have goes := ready.exec_readDescriptor (seq := seq)
    rw [State.runReadDescriptor_asks up left] at goes
    exact State.started_asks goes
  · have goes := ready.exec_writeDescriptor (seq := seq) whole
    rw [State.runWriteDescriptor_invalid invalid] at goes
    exact State.answersAtOnce goes
  · have goes := ready.exec_writeDescriptor (seq := seq) whole
    rw [(State.runWriteDescriptor_valid valid).1 entries] at goes
    exact State.answersAtOnce goes
  · have goes := ready.exec_writeDescriptor (seq := seq) whole
    rw [(State.runWriteDescriptor_valid valid).2.1 empty notRun notPass] at goes
    exact State.answersAtOnce goes
  · have goes := ready.exec_writeDescriptor (seq := seq) whole
    rw [(State.runWriteDescriptor_valid valid).2.2 empty part] at goes
    exact State.started_asks goes
  · have goes := exec_descriptorWriteEnd running busy req
    obtain ⟨stored, again, fails⟩ := State.blockWritten_cases (s := s.endTransaction) (State.job_of_cmd cmd job)
    exact ⟨⟨_, next_of_eq (goes _) stored, State.transactionOver_goesOn cmd _⟩,
      fun inTime => ⟨_, next_of_eq (goes _) (again inTime), State.transactionOver_goesOn cmd _⟩,
      fun b failed => ⟨_, next_of_eq (goes _) (fails b failed), State.transactionOver_refused cmd _⟩⟩
  · have goes := exec_descriptorWritePollEnd running busy req
    obtain ⟨next, last, again, fails⟩ := State.blockPolled_cases (s := s.endTransaction) (State.job_of_cmd cmd job)
    refine ⟨fun more => ?_, fun all => ?_, fun inTime => ?_, fun past => ?_⟩
    · obtain ⟨port, asks, same⟩ := State.jobAsks_spec (s := s.endTransaction) cmd
        (.writeBlock image (n + 1) (.writing .waiting none)) .descriptorWrite
      exact ⟨_, next_of_eq (goes _) (next more), port, asks, State.endTransaction_sameBut_trans same (by simp)⟩
    · obtain ⟨port, asks, same⟩ := State.jobAsks_spec (s := s.endTransaction) cmd
        (.readBack image { asking := .waiting, window := none }) (.descriptorRead .port)
      exact ⟨_, next_of_eq (goes _) (last all), port, asks, State.endTransaction_sameBut_trans same (by simp)⟩
    · obtain ⟨port, -, same⟩ := State.transactionOver_goesOn cmd
        (.writeBlock image n (.polling (.dueAt (s.now + 200)) stopAt))
      exact ⟨_, next_of_eq (goes _) (again inTime), port, same⟩
    · obtain ⟨port, -, same⟩ := State.transactionOver_refused cmd 19
      exact ⟨_, next_of_eq (goes _) (fails past), port, same⟩
  · have goes := exec_descriptorWriteRetryDue running cmd job
    obtain ⟨now, asks, refused, same⟩ := State.askedOrFailed_spec cmd (due := due)
      (.writeBlock image n (.writing .waiting first)) .descriptorWrite
    exact ⟨_, goes, now, fun up => ⟨congrArg (·.cmd) (asks up).1, (asks up).2⟩, refused, same⟩
  · have goes := exec_descriptorWritePollDue running cmd job
    obtain ⟨now, asks, refused, same⟩ := State.askedOrFailed_spec cmd (due := due)
      (.writeBlock image n (.polling .waiting stopAt)) .descriptorPoll
    exact ⟨_, goes, now, fun up => ⟨congrArg (·.cmd) (asks up).1, (asks up).2⟩, refused, same⟩
  · have access : s.endTransaction.portAccess = some a := State.portAccess_eq (s := s.endTransaction) cmd form job
    obtain ⟨again, fails⟩ := State.portReadEnd_nack access progress
    have goes : ∀ b, exec (.descriptorReadEnd (.nack b)) s =
        .next (s.endTransaction.portReadEnd (.nack b)).settle := fun b =>
      exec_portReadEnd running busy req nofun
    refine ⟨?_, fun b other => ⟨_, next_of_eq (goes b) (fails b other), State.transactionOver_refused cmd _⟩⟩
    have due := State.setPortAccess_eq (s := s.endTransaction) cmd form job (a.retryFrom s.now)
    obtain ⟨port, free, same⟩ := State.transactionOver_goesOn cmd (mk (a.retryFrom s.now))
    refine ⟨_, next_of_eq (goes _) (again.trans due), ?_, free, same⟩
    rw [port, Access.retryFrom_eq window]
  · obtain ⟨now, asks, refused, same⟩ := State.portReadDue_spec cmd form job (due := due) window
    exact ⟨_, exec_portReadRetryDue running noStart (State.portAccess_eq cmd form job) asking window, now, asks,
      refused, same⟩
  · have goes := exec_portAnswerWindowEnd running noStart (State.portAccess_eq cmd form job) window
    have over_ : s.sameBut ((s.advanceTo (w + 10000)).withdraw (.descriptorRead .port)) [.now, .ds] := by
      refine State.sameBut_trans ?_ (State.sameBut_mono (State.withdraw_sameBut _ _) (by simp))
      intro p hp; cases p <;> simp_all [State.sameAt]
    have refused := State.refuse_sameBut ((s.advanceTo (w + 10000)).withdraw (.descriptorRead .port)) 19
    refine ⟨_, goes, refused .now (by simp), State.finish_port
        (s := (s.advanceTo (w + 10000)).withdraw (.descriptorRead .port)) cmd _ _, ?_,
      State.sameBut_settled (State.sameBut_trans (State.sameBut_mono over_ (by simp))
        (State.sameBut_mono refused (by simp)))⟩
    have ds : (((s.advanceTo (w + 10000)).withdraw (.descriptorRead .port)).refuse 19).ds = _ :=
      refused .ds (by simp)
    show _ ∉ (((s.advanceTo (w + 10000)).withdraw (.descriptorRead .port)).refuse 19).ds.waiting
    rw [ds]
    exact State.not_mem_withdraw _ _
  · have goes : exec (.descriptorReadEnd (.completed image)) s =
        .next (s.endTransaction.portReadEnd (.completed image)).settle :=
      exec_portReadEnd running busy req fun dev' word' n' bytes' txn' done' => by
        rw [txn] at txn'; cases txn'; cases done'; rfl
    refine ⟨fun job => ?_, fun written job => ?_⟩
    · have read := State.portReadEnd_completed (s := s.endTransaction)
        (State.portAccess_eq (s := s.endTransaction) cmd (.inl rfl) job) progress image
      have done : s.endTransaction.portReadDone image = s.endTransaction.finish .ok image := by
        simp only [State.portReadDone, State.job_of_cmd (s := s.endTransaction) cmd job]
      exact ⟨_, next_of_eq goes (read.trans done), State.transactionOver_ended cmd _ _⟩
    · have read := State.portReadEnd_completed (s := s.endTransaction)
        (State.portAccess_eq (s := s.endTransaction) cmd (.inr ⟨written, rfl⟩) job) progress image
      have progress' := State.job_of_cmd (s := s.endTransaction) cmd job
      by_cases same : image = written
      · have done : s.endTransaction.portReadDone image = s.endTransaction.finish .ok [] := by
          simp only [State.portReadDone, progress', if_pos same]
        rw [if_pos same]
        exact ⟨_, next_of_eq goes (read.trans done), State.transactionOver_ended cmd _ _⟩
      · have done : s.endTransaction.portReadDone image = s.endTransaction.refuse 20 := by
          simp only [State.portReadDone, progress', if_neg same]; rfl
        rw [if_neg same]
        exact ⟨_, next_of_eq goes (read.trans done), State.transactionOver_refused cmd _⟩

end Sys2Proof.Machine
end
